-- ==== Sys2Proof/Word.lean ====
section
/-! DEFINITION. Widths of the quantities the engine handles (R5, R6): nothing here computes. -/

namespace Sys2Proof

/-- A data byte, a register index, a value, an address byte: `DATA_W` and `REG_W` are 8 (R5). -/
abbrev Byte := BitVec 8

/-- A slave address: `SLAVE_W` is 7, so `slave < 128` holds by type (R5, R79). -/
abbrev SlaveAddr := BitVec 7

/-- A command word of format `CMD` (R70, R71). -/
abbrev CmdWord := BitVec 32

/-- The `LENGTH` field of a read command word: `LEN_W` is 16 (R5, R71). -/
abbrev LengthField := BitVec 16

/-- A sequencer state code of format `STEP`, six bits (R81). -/
abbrev StepCode := BitVec 6

end Sys2Proof
end

