-- ==== Sys2Proof/Syntax.lean ====
section
/-! DEFINITION. The vocabulary of the engine: sequencer states (R81), the named fields of the register interface
(R8), the instructions (one constructor per row of `spec/opcode_table.json`) and the three encoded formats. -/

namespace Sys2Proof

/-- The values of the sequencer register `step` (R12, R81): 43 names, 1 idle, 16 poll, 26 emit. -/
inductive Step where
  /-- `IDLE`, code 0 (R95). -/
  | idle
  /-- `P1_WAIT_IDLE`, code 1 (R111). -/
  | p1WaitIdle
  /-- `P2_START`, code 2 (R112). -/
  | p2Start
  /-- `P2_WAIT_SB`, code 3 (R113). -/
  | p2WaitSb
  /-- `P3_ADDR_W`, code 4 (R114). -/
  | p3AddrW
  /-- `P3_WAIT_ADDR`, code 5 (R115). -/
  | p3WaitAddr
  /-- `P3_WAIT_TRA`, code 6 (R116). -/
  | p3WaitTra
  /-- `P4_WAIT_TXE`, code 7 (R117). -/
  | p4WaitTxe
  /-- `P4_REG`, code 8 (R118). -/
  | p4Reg
  /-- `P5_WAIT_BTF`, code 9 (R119). -/
  | p5WaitBtf
  /-- `W5_VALUE`, code 10 (R120). -/
  | w5Value
  /-- `W6_WAIT_BTF`, code 11 (R121). -/
  | w6WaitBtf
  /-- `W6_STOP`, code 12 (R122). -/
  | w6Stop
  /-- `W7_WAIT_END`, code 13 (R123). -/
  | w7WaitEnd
  /-- `R0_ACK_SET`, code 14 (R142). -/
  | r0AckSet
  /-- `R0_POS_CLR`, code 15 (R143). -/
  | r0PosClr
  /-- `R1_RESTART`, code 16 (R144). -/
  | r1Restart
  /-- `R1_WAIT_SB`, code 17 (R145). -/
  | r1WaitSb
  /-- `R2_ADDR_R`, code 18 (R146). -/
  | r2AddrR
  /-- `R2_WAIT_ADDR`, code 19 (R147). -/
  | r2WaitAddr
  /-- `S1_ACK_CLR`, code 20 (R161). -/
  | s1AckClr
  /-- `S1_ADDR_CLR`, code 21 (R162). -/
  | s1AddrClr
  /-- `S1_STOP`, code 22 (R163). -/
  | s1Stop
  /-- `S1_WAIT_RXNE`, code 23 (R164). -/
  | s1WaitRxne
  /-- `S1_READ`, code 24 (R165). -/
  | s1Read
  /-- `S2_POS_SET`, code 25 (R168). -/
  | s2PosSet
  /-- `S2_ADDR_CLR`, code 26 (R169). -/
  | s2AddrClr
  /-- `S2_ACK_CLR`, code 27 (R170). -/
  | s2AckClr
  /-- `S2_WAIT_BTF`, code 28 (R171). -/
  | s2WaitBtf
  /-- `S2_STOP`, code 29 (R172). -/
  | s2Stop
  /-- `S2_READ0`, code 30 (R173). -/
  | s2Read0
  /-- `S2_READ1`, code 31 (R174). -/
  | s2Read1
  /-- `SN_ADDR_CLR`, code 32 (R177). -/
  | snAddrClr
  /-- `SN_STREAM_WAIT`, code 33 (R178). -/
  | snStreamWait
  /-- `SN_STREAM_READ`, code 34 (R179). -/
  | snStreamRead
  /-- `SN_TAIL_WAIT_BTF`, code 35 (R180). -/
  | snTailWaitBtf
  /-- `SN_TAIL_ACK_CLR`, code 36 (R181). -/
  | snTailAckClr
  /-- `SN_TAIL_READ_A`, code 37 (R182). -/
  | snTailReadA
  /-- `SN_TAIL_STOP`, code 38 (R183). -/
  | snTailStop
  /-- `SN_TAIL_READ_B`, code 39 (R184). -/
  | snTailReadB
  /-- `SN_TAIL_WAIT_IDLE`, code 40 (R185). -/
  | snTailWaitIdle
  /-- `SN_TAIL_WAIT_RXNE`, code 41 (R186). -/
  | snTailWaitRxne
  /-- `SN_TAIL_READ_C`, code 42 (R187). -/
  | snTailReadC
  deriving DecidableEq, Repr, Inhabited

/-- The eight status flags of the bus controller (R8, R20). -/
inductive Flag where
  /-- `busy` (R21). -/
  | busy
  /-- `start_sent` (R22). -/
  | startSent
  /-- `addr_matched` (R23). -/
  | addrMatched
  /-- `tx_dir`, 1 for master transmitter (R24). -/
  | txDir
  /-- `tx_empty` (R25). -/
  | txEmpty
  /-- `btf` (R26). -/
  | btf
  /-- `rx_not_empty` (R27). -/
  | rxNotEmpty
  /-- `stop_detected`, read by no rule (R28). -/
  | stopDetected
  deriving DecidableEq, Repr, Inhabited

/-- The four control or command bits of the bus controller (R8, R29 to R32). -/
inductive Bit where
  /-- `ack_enable` (R29). -/
  | ackEnable
  /-- `pos`, "position next ACK" (R30). -/
  | pos
  /-- `start` (R31). -/
  | start
  /-- `stop` (R32). -/
  | stop
  deriving DecidableEq, Repr, Inhabited

/-- The instructions: one constructor per row of `spec/opcode_table.json`. The six `CMD` rows are what the host
issues (R76 to R78), the two `ADDRBYTE` rows the signaler's address bytes (R98, R99), the 43 `STEP` rows the
sequencer states, each of which is one engine step (R81, R90). -/
inductive Instr where
  /-- `WR`: `write(slave, reg, value)` (R110). -/
  | wr (slave : SlaveAddr) (reg value : Byte)
  /-- `WR_RESERVED`: a write word whose bits 31:24, here `reserved`, are not zero (R78). -/
  | wrReserved (slave : SlaveAddr) (reg value reserved : Byte)
  /-- `RD0`: a read word of length 0 (R77). -/
  | rd0 (slave : SlaveAddr) (reg : Byte)
  /-- `RD1`: `read(slave, reg, buf[1])` (R160). -/
  | rd1 (slave : SlaveAddr) (reg : Byte)
  /-- `RD2`: `read(slave, reg, buf[2])` (R167). -/
  | rd2 (slave : SlaveAddr) (reg : Byte)
  /-- `RDN`: `read(slave, reg, buf[length])` with `length >= 3` (R176). -/
  | rdn (slave : SlaveAddr) (reg : Byte) (length : LengthField)
  /-- `SLA_W`: the address byte with the direction bit clear (R73, R98). -/
  | slaW (slave : SlaveAddr)
  /-- `SLA_R`: the address byte with the direction bit set (R73, R99). -/
  | slaR (slave : SlaveAddr)
  /-- `IDLE` (R95): idle, none. -/
  | idle
  /-- `P1_WAIT_IDLE` (R111): poll, FlagRead(busy) want 0. -/
  | p1WaitIdle
  /-- `P2_START` (R112): emit, BitSet(start). -/
  | p2Start
  /-- `P2_WAIT_SB` (R113): poll, FlagRead(start_sent) want 1. -/
  | p2WaitSb
  /-- `P3_ADDR_W` (R114): emit, DataWrite(SLA_W). -/
  | p3AddrW
  /-- `P3_WAIT_ADDR` (R115): poll, FlagRead(addr_matched) want 1. -/
  | p3WaitAddr
  /-- `P3_WAIT_TRA` (R116): poll, FlagRead(tx_dir) want 1. -/
  | p3WaitTra
  /-- `P4_WAIT_TXE` (R117): poll, FlagRead(tx_empty) want 1. -/
  | p4WaitTxe
  /-- `P4_REG` (R118): emit, DataWrite(cmd.reg). -/
  | p4Reg
  /-- `P5_WAIT_BTF` (R119): poll, FlagRead(btf) want 1. -/
  | p5WaitBtf
  /-- `W5_VALUE` (R120): emit, DataWrite(cmd.value). -/
  | w5Value
  /-- `W6_WAIT_BTF` (R121): poll, FlagRead(btf) want 1. -/
  | w6WaitBtf
  /-- `W6_STOP` (R122): emit, BitSet(stop). -/
  | w6Stop
  /-- `W7_WAIT_END` (R123): poll, FlagRead(start_sent) want 0, or FlagRead(busy) want 0. -/
  | w7WaitEnd
  /-- `R0_ACK_SET` (R142): emit, BitSet(ack_enable). -/
  | r0AckSet
  /-- `R0_POS_CLR` (R143): emit, BitClear(pos). -/
  | r0PosClr
  /-- `R1_RESTART` (R144): emit, BitSet(start). -/
  | r1Restart
  /-- `R1_WAIT_SB` (R145): poll, FlagRead(start_sent) want 1. -/
  | r1WaitSb
  /-- `R2_ADDR_R` (R146): emit, DataWrite(SLA_R). -/
  | r2AddrR
  /-- `R2_WAIT_ADDR` (R147): poll, FlagRead(addr_matched) want 1. -/
  | r2WaitAddr
  /-- `S1_ACK_CLR` (R161): emit, BitClear(ack_enable). -/
  | s1AckClr
  /-- `S1_ADDR_CLR` (R162): emit, AddrClear. -/
  | s1AddrClr
  /-- `S1_STOP` (R163): emit, BitSet(stop). -/
  | s1Stop
  /-- `S1_WAIT_RXNE` (R164): poll, FlagRead(rx_not_empty) want 1. -/
  | s1WaitRxne
  /-- `S1_READ` (R165): emit, DataRead to buf[0]. -/
  | s1Read
  /-- `S2_POS_SET` (R168): emit, BitSet(pos). -/
  | s2PosSet
  /-- `S2_ADDR_CLR` (R169): emit, AddrClear. -/
  | s2AddrClr
  /-- `S2_ACK_CLR` (R170): emit, BitClear(ack_enable). -/
  | s2AckClr
  /-- `S2_WAIT_BTF` (R171): poll, FlagRead(btf) want 1. -/
  | s2WaitBtf
  /-- `S2_STOP` (R172): emit, BitSet(stop). -/
  | s2Stop
  /-- `S2_READ0` (R173): emit, DataRead to buf[0]. -/
  | s2Read0
  /-- `S2_READ1` (R174): emit, DataRead to buf[1]. -/
  | s2Read1
  /-- `SN_ADDR_CLR` (R177): emit, AddrClear. -/
  | snAddrClr
  /-- `SN_STREAM_WAIT` (R178): poll, FlagRead(btf) want 1. -/
  | snStreamWait
  /-- `SN_STREAM_READ` (R179): emit, DataRead to buf[idx]. -/
  | snStreamRead
  /-- `SN_TAIL_WAIT_BTF` (R180): poll, FlagRead(btf) want 1. -/
  | snTailWaitBtf
  /-- `SN_TAIL_ACK_CLR` (R181): emit, BitClear(ack_enable). -/
  | snTailAckClr
  /-- `SN_TAIL_READ_A` (R182): emit, DataRead to buf[length−3]. -/
  | snTailReadA
  /-- `SN_TAIL_STOP` (R183): emit, BitSet(stop). -/
  | snTailStop
  /-- `SN_TAIL_READ_B` (R184): emit, DataRead to buf[length−2]. -/
  | snTailReadB
  /-- `SN_TAIL_WAIT_IDLE` (R185): poll, FlagRead(busy) want 0. -/
  | snTailWaitIdle
  /-- `SN_TAIL_WAIT_RXNE` (R186): poll, FlagRead(rx_not_empty) want 1. -/
  | snTailWaitRxne
  /-- `SN_TAIL_READ_C` (R187): emit, DataRead to buf[length−1]. -/
  | snTailReadC
  deriving DecidableEq, Repr, Inhabited

/-- One encoded word of one of the three formats of the opcode table (R70, R81). A `CMD` word is one 32-bit
number: the spec gives it no byte order (log 27). -/
inductive Encoded where
  /-- A host command word (R71). -/
  | cmd (w : CmdWord)
  /-- A byte the engine sends as an address byte (R73). -/
  | addrByte (b : Byte)
  /-- A sequencer state code (R81). -/
  | step (c : StepCode)
  deriving DecidableEq, Repr

/-- Why a word is no instruction. -/
inductive DecodeError where
  /-- Codes 43 to 63 of the six-bit sequencer register are unused (R81). -/
  | unusedStepCode (c : StepCode)
  deriving DecidableEq, Repr

end Sys2Proof
end

