-- ==== Sys2Proof/Config.lean ====
section
/-! DEFINITION. What an implementation fixes (the three parameters of R5) and what the environment answers (R57):
the shape of one move of the environment, and the free values, which are opaque. -/

namespace Sys2Proof

/-- `WR_FINAL_WAIT`: the flag the last wait of a write polls (R5, R123). -/
inductive FinalWait where
  /-- Poll `start_sent` for 0: the source's step 7, the default. -/
  | startSentClear
  /-- Poll `busy` for 0: the source's suggestion of its section 9. -/
  | busIdle
  deriving DecidableEq, Repr, Inhabited

/-- The parameters of the engine (R5). They are arguments of the model, so State carries them as data that no step
writes (log 1). -/
structure Params where
  /-- `POLL_BUDGET`: `none` is the baseline, `some n` with `n >= 1` the hardened form (R200, R202). -/
  pollBudget : Option Nat
  /-- `WR_FINAL_WAIT` (R123). -/
  finalWait : FinalWait
  /-- `READ_INIT`: the read phase opens by setting `ack_enable` and clearing `pos` (R142, R143). -/
  readInit : Bool
  deriving DecidableEq, Repr, Inhabited

/-- The default parameters (R5). -/
def Params.default : Params := ⟨none, .startSentClear, true⟩

/-- A poll budget is at least 1 (R5, R202). -/
def Params.wf (p : Params) : Bool := p.pollBudget != some 0

/-- The eight status flags (R20); the engine only reads them. -/
structure Flags where
  /-- `busy` (R21). -/
  busy : Bool
  /-- `start_sent` (R22). -/
  startSent : Bool
  /-- `addr_matched` (R23). -/
  addrMatched : Bool
  /-- `tx_dir` (R24). -/
  txDir : Bool
  /-- `tx_empty` (R25). -/
  txEmpty : Bool
  /-- `btf` (R26). -/
  btf : Bool
  /-- `rx_not_empty` (R27). -/
  rxNotEmpty : Bool
  /-- `stop_detected` (R28). -/
  stopDetected : Bool
  deriving DecidableEq, Repr, Inhabited

/-- The flags at reset: the spec gives no value (log 5). -/
def Flags.blank : Flags := ⟨false, false, false, false, false, false, false, false⟩

/-- The transaction open on the bus, the hidden state of R34 (b), at the grain of R59 to R65. -/
inductive Phase where
  /-- No transaction is open (R58). -/
  | idle
  /-- A START or repeated START is sent; the next byte is an address byte (R59, R60). -/
  | started
  /-- The slave is addressed for writing; the next byte is a register index (R60, R65). -/
  | select
  /-- The register is selected; the next byte is the value to store (R65). -/
  | store
  /-- The slave is addressed for reading and the address-matched condition holds it (R60). -/
  | armed
  /-- Received bytes flow (R60, R62). -/
  | receiving
  /-- The last byte was not acknowledged: the slave has stopped sending (R65). -/
  | drained
  /-- No slave acknowledged the address (R60). -/
  | deaf
  deriving DecidableEq, Repr, Inhabited

/-- One symbol on the wire (R70 `FRAME`, R74, R75). -/
inductive Symbol where
  /-- `S`. -/
  | start
  /-- `Sr`. -/
  | restart
  /-- A byte and its acknowledge bit: true for `A` or `a`, false for `n`. -/
  | byte (b : Byte) (ack : Bool)
  /-- `P`. -/
  | stop
  deriving DecidableEq, Repr, Inhabited

/-- One move of the environment (controller, bus, slaves): whatever it may change of its own accord between two
operations of the engine (R20, R57, R90). It covers the flags, the two command bits, the data register, the
hidden state of R34, the slave registers that changed (R52) and the symbols put on the wire. -/
structure EnvMove where
  /-- The flags as the controller now presents them. -/
  flags : Flags
  /-- The `start` command bit: what clears it is open (R31). -/
  start : Bool
  /-- The `stop` command bit: what clears it is open (R32). -/
  stop : Bool
  /-- The byte a data read finds (R46). -/
  data : Byte
  /-- The transaction on the bus. -/
  phase : Phase
  /-- The slave the transaction addresses. -/
  slave : SlaveAddr
  /-- The slave's register index. -/
  ptr : Nat
  /-- The receive shift register, if it holds a complete byte. -/
  shift : Option Byte
  /-- The acknowledge that `pos` holds for the byte now arriving. -/
  ackNext : Bool
  /-- The slaves that answer. -/
  present : List SlaveAddr
  /-- Slave registers that change: slave, register, new byte. -/
  slaveRegs : List (SlaveAddr × Byte × Byte)
  /-- Symbols that appear on the wire. -/
  wire : List Symbol
  deriving DecidableEq, Repr, Inhabited

/-- FREE VALUE (R57): the move the environment makes before the engine's `n`-th unscripted step. Nothing
constrains it (log 3). -/
opaque Config.freeMove : Nat → EnvMove

/-- FREE VALUE (R50, 93_implementation_defined.md U14): the byte a slave sends when a burst has run past register
`0xFF`, by slave and index (log 21). -/
opaque Config.pastEndByte : SlaveAddr → Nat → Byte

/-- FREE VALUE (R57, 93_implementation_defined.md U9): the byte the fixture's controller answers when a data read finds no
unread byte, by the count of free values drawn (log 39). -/
opaque Config.noByte : Nat → Byte

end Sys2Proof
end

