-- ==== Sys2Proof/Machine/State.lean ====
section
/-! DEFINITION. The state of the machine as plain data: the engine's record (R10), the bus controller's fields
(R20 to R33), the hidden state of R34 with the slave register space (R40), the trace (R41), and the model's own
fields (parameters, pending turns, counter of free values). -/

namespace Sys2Proof.Machine

/-- Why the machine stops: only the host's reading of `buf` can, never a step of the engine. -/
inductive Fault where
  /-- Raised by a host read of `buf` while `done` is false: the host "may read `buf` only while `done` is true"
  (R17, R217) and the spec gives such a read no result. Safe (log 11). -/
  | bufReadBeforeDone
  /-- Raised by a host read of a cell `buf` does not have (R17: the cells are numbered 0 to `cmd.length - 1`). Safe. -/
  | bufNoSuchCell
  /-- Raised by a host read of an empty cell: "a model that reads one faults" (R17). Safe. -/
  | bufCellEmpty
  /-- Raised by a host read of a cell left unspecified by an abort (R204, R206). Safe (log 11). -/
  | bufCellUnspecified
  /-- Raised by a host read of a cell that holds a byte when the last command ended with a status other than `OK`: the
  host "must not use it" (R17, R206, R217). Safe (logs 11 and 34). -/
  | bufAfterFailure
  /-- Raised by a host read of a cell that holds a byte when the command that ended with `OK` was a write: "A write
  command has no buffer" (R17). Safe (logs 9 and 11). -/
  | bufOfWrite
  deriving DecidableEq, Repr

/-- Why a step has no meaning. -/
inductive Refusal where
  /-- An instruction without a meaning; no arm of `exec` raises it. Safe. -/
  | notModelled (mnemonic : String)
  /-- Raised by a platform write of the controller's control bits while a command runs: concurrent use, which
  93_implementation_defined.md U3 says a model refuses (R214, R240). Safe (log 17). -/
  | concurrentAccess
  deriving DecidableEq, Repr

/-- `cmd.dir` (R11). -/
inductive Dir where
  | write
  | read
  deriving DecidableEq, Repr, Inhabited

/-- The latched command `cmd`, the source's TransactionIntent (R11). -/
structure Command where
  /-- `cmd.dir`. -/
  dir : Dir
  /-- `cmd.slave`, 7 bits. -/
  slave : SlaveAddr
  /-- `cmd.reg`, 8 bits. -/
  reg : Byte
  /-- `cmd.value`, 8 bits, written by the issue of a write only. -/
  value : Byte
  /-- `cmd.length`, a natural number, written by the issue of a read only. -/
  length : Nat
  deriving DecidableEq, Repr

/-- The result codes (R82). `noResult` is the spec's `NONE`. -/
inductive Status where
  | ok
  | busBusyTimeout
  | noAcknowledge
  | transferTimeout
  | rejected
  | noResult
  deriving DecidableEq, Repr

/-- A cell of the read buffer (R17): empty, one byte, or unspecified after an abort (R204). The first is the spec's
own "empty", the last its "unspecified": neither holds a value. -/
inductive BufCell where
  | empty
  | byte (b : Byte)
  | unspecified
  deriving DecidableEq, Repr, Inhabited

/-- The event alphabet of the trace (R41). -/
inductive Event where
  | flagRead (f : Flag) (answer : Bool)
  | bitSet (b : Bit)
  | bitClear (b : Bit)
  | dataWrite (v : Byte)
  | dataRead (answer : Byte)
  | addrClear
  deriving DecidableEq, Repr

/-- What ends a command by other means than completion (R204, R207): the engine's two "exceptions". -/
inductive Exc where
  /-- A wait spent its budget; `code` is the class of R203. -/
  | abort (code : Status)
  /-- An illegal command word at issue. -/
  | reject
  deriving DecidableEq, Repr

/-- Who moves next (R35, R90: host, engine and environment interleave freely; log 2). -/
inductive Turn where
  /-- The engine takes one step, the register interface being as it stands. -/
  | engine
  /-- The engine takes one step and the simulated conforming controller and slave react to its operation
  (R58 to R66; log 19). -/
  | conforming
  /-- The environment moves. -/
  | env (m : EnvMove)
  /-- The host issues a command word (R95). -/
  | issue (w : CmdWord)
  /-- The reset event (R230). -/
  | reset
  /-- The platform writes `ack_enable` and `pos` between commands (R232 item 4, R243). -/
  | platform (ackEnable pos : Bool)
  /-- The host reads cell `i` of `buf` (R17, R217). -/
  | readBuf (i : Nat)
  /-- The host reads `status` (R16). -/
  | readStatus
  deriving DecidableEq, Repr

/-- The slave register space (R40) as (address, byte) pairs, the address of register `r` of slave `a` being
`256 * a + r`; canonical form in Machine/Memory.lean. -/
abbrev Memory := List Host.Cell

/-- What the environment holds behind the register interface: the hidden state of R34 and the slaves. -/
structure Bus where
  /-- The transaction open on the bus (R34 (b), log 33). -/
  phase : Phase
  /-- The slave it addresses (R60). -/
  slave : SlaveAddr
  /-- The register index in that slave (R65); 256 and above are past the last register. -/
  ptr : Nat
  /-- The receive shift register, if it holds a complete byte (R34 (a), R62). -/
  shift : Option Byte
  /-- The acknowledge that `pos` holds back for the byte now arriving (R63). -/
  ackNext : Bool
  /-- The slaves that acknowledge their address (R60). -/
  present : List SlaveAddr
  /-- The registers of the slaves (R40, R65). -/
  mem : Memory
  /-- Everything that has been on the wire (R74, R75, log 31). -/
  wire : List Symbol
  deriving DecidableEq, Repr

/-- The state of the machine. -/
structure State where
  /-- `step`, the sequencer state (R12). -/
  step : Step
  /-- `cmd`, the latched command (R11). -/
  cmd : Command
  /-- `idx`, the buffer position of the next streamed byte (R13). -/
  idx : Nat
  /-- `polls`, failed samples of the current wait (R14). -/
  polls : Nat
  /-- `ack_policy`, the last value driven to `ack_enable` (R15). -/
  ackPolicy : Bool
  /-- `status` (R16). -/
  status : Status
  /-- `done` (R18). -/
  done : Bool
  /-- `buf`, the read buffer (R17). -/
  buf : List BufCell
  /-- `fault`, the sticky mark of a host error (R19). -/
  fault : Bool
  /-- `trace`, the events so far (R41). -/
  trace : List Event
  /-- The eight status flags (R20 to R28). -/
  flags : Flags
  /-- `ack_enable` (R29). -/
  ackEnable : Bool
  /-- `pos` (R30). -/
  pos : Bool
  /-- `start` (R31). -/
  start : Bool
  /-- `stop` (R32). -/
  stop : Bool
  /-- `data`, the data register (R33). -/
  data : Byte
  /-- Behind the register interface (R34, R40). -/
  bus : Bus
  /-- The parameters; MODEL's own field, no step writes it (R35, log 1). -/
  params : Params
  /-- The scripted turns still to come; MODEL's own field (log 2). -/
  turns : List Turn
  /-- How many free values have been drawn; MODEL's own field (logs 3 and 39). -/
  tick : Nat
  deriving DecidableEq, Repr

/-- What `cmd` holds at reset: the spec gives no value (log 4). -/
def Command.blank : Command := ⟨.write, 0, 0, 0, 0⟩

/-- The environment at reset: the spec gives no value (log 6). -/
def Bus.blank : Bus := ⟨.idle, 0, 0, none, false, [], [], []⟩

/-- The machine right after reset (R36, R230): engine fields as R230 writes them, the parameters at their defaults
(R5), the fields the spec leaves unspecified at the values logs 4, 5 and 6 name, no turn pending. -/
def State.reset : State where
  step := .idle
  cmd := Command.blank
  idx := 0
  polls := 0
  ackPolicy := false
  status := .noResult
  done := false
  buf := []
  fault := false
  trace := []
  flags := Flags.blank
  ackEnable := false
  pos := false
  start := false
  stop := false
  data := 0
  bus := Bus.blank
  params := Params.default
  turns := []
  tick := 0

end Sys2Proof.Machine
end

