-- ==== Sys2Proof/Machine/Memory.lean ====
section
/-! DEFINITION. The slave register space (R40): 128 slaves of 256 one-byte registers, held as a canonical list of
cells. The engine never touches it; the environment does (R65). -/

namespace Sys2Proof.Machine

/-- What a register that nothing has written reads as: the spec gives no value (log 7). -/
def Memory.blank : Byte := 0

/-- The number of one-byte registers in the space (R40). -/
def Memory.size : Nat := 32768

/-- The cell of register `reg` of slave `slave`. -/
def slaveCell (slave : SlaveAddr) (reg : Byte) : Nat := 256 * slave.toNat + reg.toNat

/-- Read one byte. -/
def Memory.read (a : Nat) : Memory → Byte
  | [] => Memory.blank
  | (b, v) :: m => if a = b then v else Memory.read a m

/-- Write one byte, keeping the canonical form: writing `Memory.blank` removes the entry. -/
def Memory.write (a : Nat) (v : Byte) : Memory → Memory
  | [] => if v = Memory.blank then [] else [(a, v)]
  | (b, w) :: m =>
    if a < b then (if v = Memory.blank then (b, w) :: m else (a, v) :: (b, w) :: m)
    else if a = b then (if v = Memory.blank then m else (a, v) :: m)
    else (b, w) :: Memory.write a v m

/-- The canonical form: addresses strictly rising and inside the space, no entry equal to `Memory.blank`. -/
abbrev Memory.wf (m : Memory) : Prop :=
  m.Pairwise (fun c d => c.1 < d.1) ∧ ∀ c ∈ m, c.1 < Memory.size ∧ c.2 ≠ Memory.blank

/-- Store a list of slave registers, in order. -/
def Memory.writeAll (m : Memory) (l : List (SlaveAddr × Byte × Byte)) : Memory :=
  l.foldl (fun m x => Memory.write (slaveCell x.1 x.2.1) x.2.2 m) m

end Sys2Proof.Machine
end

