-- ==== Sys2Proof/WellFormed.lean ====
section
/-! DEFINITION. Which instruction terms the command word can express: the two rows of the opcode table with a
constraint (R76, R78). Every other operand range is kept by the operand's width. -/

namespace Sys2Proof

/-- `WR_RESERVED` is a write word whose reserved bits are not all zero (R78). -/
def Instr.reservedSet (reserved : Byte) : Bool := reserved != 0

/-- `RDN` is a read word of length 3 or more (R76). -/
def Instr.longEnough (length : LengthField) : Bool := 3 ≤ length.toNat

/-- The well-formed instructions. -/
def Instr.wf : Instr → Bool
  | .wrReserved _ _ _ reserved => Instr.reservedSet reserved
  | .rdn _ _ length => Instr.longEnough length
  | .wr _ _ _ | .rd0 _ _ | .rd1 _ _ | .rd2 _ _ | .slaW _ | .slaR _ => true
  | .idle | .p1WaitIdle | .p2Start | .p2WaitSb | .p3AddrW | .p3WaitAddr | .p3WaitTra | .p4WaitTxe | .p4Reg
  | .p5WaitBtf | .w5Value | .w6WaitBtf | .w6Stop | .w7WaitEnd | .r0AckSet | .r0PosClr | .r1Restart
  | .r1WaitSb | .r2AddrR | .r2WaitAddr | .s1AckClr | .s1AddrClr | .s1Stop | .s1WaitRxne | .s1Read | .s2PosSet
  | .s2AddrClr | .s2AckClr | .s2WaitBtf | .s2Stop | .s2Read0 | .s2Read1 | .snAddrClr | .snStreamWait
  | .snStreamRead | .snTailWaitBtf | .snTailAckClr | .snTailReadA | .snTailStop | .snTailReadB
  | .snTailWaitIdle | .snTailWaitRxne | .snTailReadC => true

end Sys2Proof
end

