-- ==== Sys2Proof/Decode.lean ====
section
/-! DEFINITION. Decoding (R71 to R73, R76 to R81, R86) and, after it, the encoder written from the same tables. -/

namespace Sys2Proof

/-! ### Fields of the `CMD` word (R71) -/

/-- Bit 0, `DIR`: false for `Write`, true for `Read`. -/
def CmdWord.dir (w : CmdWord) : Bool := w.getLsbD 0

/-- Bits 7:1, `SLAVE`. -/
def CmdWord.slave (w : CmdWord) : SlaveAddr := w.extractLsb' 1 7

/-- Bits 15:8, `REG`. -/
def CmdWord.reg (w : CmdWord) : Byte := w.extractLsb' 8 8

/-- Bits 23:16, `VALUE` of a write. -/
def CmdWord.value (w : CmdWord) : Byte := w.extractLsb' 16 8

/-- Bits 31:24, reserved in a write. -/
def CmdWord.reserved (w : CmdWord) : Byte := w.extractLsb' 24 8

/-- Bits 31:16, `LENGTH` of a read. -/
def CmdWord.length (w : CmdWord) : LengthField := w.extractLsb' 16 16

/-- The decode order of R86; total, every word is one of the six `CMD` rows. -/
def decodeCmd (w : CmdWord) : Instr :=
  if CmdWord.dir w = false then
    if CmdWord.reserved w ≠ 0 then
      .wrReserved (CmdWord.slave w) (CmdWord.reg w) (CmdWord.value w) (CmdWord.reserved w)
    else .wr (CmdWord.slave w) (CmdWord.reg w) (CmdWord.value w)
  else if CmdWord.length w = 0 then .rd0 (CmdWord.slave w) (CmdWord.reg w)
  else if CmdWord.length w = 1 then .rd1 (CmdWord.slave w) (CmdWord.reg w)
  else if CmdWord.length w = 2 then .rd2 (CmdWord.slave w) (CmdWord.reg w)
  else .rdn (CmdWord.slave w) (CmdWord.reg w) (CmdWord.length w)

/-- The address byte `aaaaaaa0` or `aaaaaaa1` (R73). -/
def decodeAddrByte (b : Byte) : Instr :=
  if b.getLsbD 0 = false then .slaW (b.extractLsb' 1 7) else .slaR (b.extractLsb' 1 7)

/-! ### Sequencer state codes (R81) -/

/-- The code of each sequencer state (R81). -/
def Step.code : Step → StepCode
  | .idle => 0
  | .p1WaitIdle => 1
  | .p2Start => 2
  | .p2WaitSb => 3
  | .p3AddrW => 4
  | .p3WaitAddr => 5
  | .p3WaitTra => 6
  | .p4WaitTxe => 7
  | .p4Reg => 8
  | .p5WaitBtf => 9
  | .w5Value => 10
  | .w6WaitBtf => 11
  | .w6Stop => 12
  | .w7WaitEnd => 13
  | .r0AckSet => 14
  | .r0PosClr => 15
  | .r1Restart => 16
  | .r1WaitSb => 17
  | .r2AddrR => 18
  | .r2WaitAddr => 19
  | .s1AckClr => 20
  | .s1AddrClr => 21
  | .s1Stop => 22
  | .s1WaitRxne => 23
  | .s1Read => 24
  | .s2PosSet => 25
  | .s2AddrClr => 26
  | .s2AckClr => 27
  | .s2WaitBtf => 28
  | .s2Stop => 29
  | .s2Read0 => 30
  | .s2Read1 => 31
  | .snAddrClr => 32
  | .snStreamWait => 33
  | .snStreamRead => 34
  | .snTailWaitBtf => 35
  | .snTailAckClr => 36
  | .snTailReadA => 37
  | .snTailStop => 38
  | .snTailReadB => 39
  | .snTailWaitIdle => 40
  | .snTailWaitRxne => 41
  | .snTailReadC => 42

/-- The instruction each sequencer state names: the engine's "fetch" (R12, R90). -/
def Step.instr : Step → Instr
  | .idle => .idle
  | .p1WaitIdle => .p1WaitIdle
  | .p2Start => .p2Start
  | .p2WaitSb => .p2WaitSb
  | .p3AddrW => .p3AddrW
  | .p3WaitAddr => .p3WaitAddr
  | .p3WaitTra => .p3WaitTra
  | .p4WaitTxe => .p4WaitTxe
  | .p4Reg => .p4Reg
  | .p5WaitBtf => .p5WaitBtf
  | .w5Value => .w5Value
  | .w6WaitBtf => .w6WaitBtf
  | .w6Stop => .w6Stop
  | .w7WaitEnd => .w7WaitEnd
  | .r0AckSet => .r0AckSet
  | .r0PosClr => .r0PosClr
  | .r1Restart => .r1Restart
  | .r1WaitSb => .r1WaitSb
  | .r2AddrR => .r2AddrR
  | .r2WaitAddr => .r2WaitAddr
  | .s1AckClr => .s1AckClr
  | .s1AddrClr => .s1AddrClr
  | .s1Stop => .s1Stop
  | .s1WaitRxne => .s1WaitRxne
  | .s1Read => .s1Read
  | .s2PosSet => .s2PosSet
  | .s2AddrClr => .s2AddrClr
  | .s2AckClr => .s2AckClr
  | .s2WaitBtf => .s2WaitBtf
  | .s2Stop => .s2Stop
  | .s2Read0 => .s2Read0
  | .s2Read1 => .s2Read1
  | .snAddrClr => .snAddrClr
  | .snStreamWait => .snStreamWait
  | .snStreamRead => .snStreamRead
  | .snTailWaitBtf => .snTailWaitBtf
  | .snTailAckClr => .snTailAckClr
  | .snTailReadA => .snTailReadA
  | .snTailStop => .snTailStop
  | .snTailReadB => .snTailReadB
  | .snTailWaitIdle => .snTailWaitIdle
  | .snTailWaitRxne => .snTailWaitRxne
  | .snTailReadC => .snTailReadC

/-- The states in code order: the prefix and the write tail, codes 0 to 13. -/
def Step.writeStates : List Step :=
  [.idle, .p1WaitIdle, .p2Start, .p2WaitSb, .p3AddrW, .p3WaitAddr, .p3WaitTra, .p4WaitTxe, .p4Reg,
   .p5WaitBtf, .w5Value, .w6WaitBtf, .w6Stop, .w7WaitEnd]

/-- The states of the read phase, codes 14 to 42. -/
def Step.readStates : List Step :=
  [.r0AckSet, .r0PosClr, .r1Restart, .r1WaitSb, .r2AddrR, .r2WaitAddr, .s1AckClr, .s1AddrClr, .s1Stop,
   .s1WaitRxne, .s1Read, .s2PosSet, .s2AddrClr, .s2AckClr, .s2WaitBtf, .s2Stop, .s2Read0, .s2Read1,
   .snAddrClr, .snStreamWait, .snStreamRead, .snTailWaitBtf, .snTailAckClr, .snTailReadA, .snTailStop,
   .snTailReadB, .snTailWaitIdle, .snTailWaitRxne, .snTailReadC]

/-- The state a code names, if any: codes 43 to 63 are unused (R81). -/
def Step.ofCode (c : StepCode) : Option Step := (Step.writeStates ++ Step.readStates)[c.toNat]?

/-- Decoding one word of any format: total, rejecting an unused state code by name. -/
def decode : Encoded → Except DecodeError Instr
  | .cmd w => .ok (decodeCmd w)
  | .addrByte b => .ok (decodeAddrByte b)
  | .step c =>
    match Step.ofCode c with
    | some s => .ok s.instr
    | none => .error (.unusedStepCode c)

/-! ### Encoding -/

/-- A write word: `DIR = 0`, `SLAVE`, `REG`, `VALUE`, reserved bits (R71). -/
def encodeWrite (slave : SlaveAddr) (reg value reserved : Byte) : CmdWord := reserved ++ value ++ reg ++ slave ++ 0#1

/-- A read word: `DIR = 1`, `SLAVE`, `REG`, `LENGTH` (R71). -/
def encodeRead (slave : SlaveAddr) (reg : Byte) (length : LengthField) : CmdWord := length ++ reg ++ slave ++ 1#1

/-- `SLA_W` and `SLA_R`: the slave address shifted left by one with the direction bit `d` in bit 0 (R73, R107). -/
def addressByte (slave : SlaveAddr) (d : BitVec 1) : Byte := (slave.zeroExtend 8 <<< 1) ||| d.zeroExtend 8

/-- The word of each instruction. -/
def encode : Instr → Encoded
  | .wr slave reg value => .cmd (encodeWrite slave reg value 0)
  | .wrReserved slave reg value reserved => .cmd (encodeWrite slave reg value reserved)
  | .rd0 slave reg => .cmd (encodeRead slave reg 0)
  | .rd1 slave reg => .cmd (encodeRead slave reg 1)
  | .rd2 slave reg => .cmd (encodeRead slave reg 2)
  | .rdn slave reg length => .cmd (encodeRead slave reg length)
  | .slaW slave => .addrByte (addressByte slave 0)
  | .slaR slave => .addrByte (addressByte slave 1)
  | .idle => .step (Step.code .idle)
  | .p1WaitIdle => .step (Step.code .p1WaitIdle)
  | .p2Start => .step (Step.code .p2Start)
  | .p2WaitSb => .step (Step.code .p2WaitSb)
  | .p3AddrW => .step (Step.code .p3AddrW)
  | .p3WaitAddr => .step (Step.code .p3WaitAddr)
  | .p3WaitTra => .step (Step.code .p3WaitTra)
  | .p4WaitTxe => .step (Step.code .p4WaitTxe)
  | .p4Reg => .step (Step.code .p4Reg)
  | .p5WaitBtf => .step (Step.code .p5WaitBtf)
  | .w5Value => .step (Step.code .w5Value)
  | .w6WaitBtf => .step (Step.code .w6WaitBtf)
  | .w6Stop => .step (Step.code .w6Stop)
  | .w7WaitEnd => .step (Step.code .w7WaitEnd)
  | .r0AckSet => .step (Step.code .r0AckSet)
  | .r0PosClr => .step (Step.code .r0PosClr)
  | .r1Restart => .step (Step.code .r1Restart)
  | .r1WaitSb => .step (Step.code .r1WaitSb)
  | .r2AddrR => .step (Step.code .r2AddrR)
  | .r2WaitAddr => .step (Step.code .r2WaitAddr)
  | .s1AckClr => .step (Step.code .s1AckClr)
  | .s1AddrClr => .step (Step.code .s1AddrClr)
  | .s1Stop => .step (Step.code .s1Stop)
  | .s1WaitRxne => .step (Step.code .s1WaitRxne)
  | .s1Read => .step (Step.code .s1Read)
  | .s2PosSet => .step (Step.code .s2PosSet)
  | .s2AddrClr => .step (Step.code .s2AddrClr)
  | .s2AckClr => .step (Step.code .s2AckClr)
  | .s2WaitBtf => .step (Step.code .s2WaitBtf)
  | .s2Stop => .step (Step.code .s2Stop)
  | .s2Read0 => .step (Step.code .s2Read0)
  | .s2Read1 => .step (Step.code .s2Read1)
  | .snAddrClr => .step (Step.code .snAddrClr)
  | .snStreamWait => .step (Step.code .snStreamWait)
  | .snStreamRead => .step (Step.code .snStreamRead)
  | .snTailWaitBtf => .step (Step.code .snTailWaitBtf)
  | .snTailAckClr => .step (Step.code .snTailAckClr)
  | .snTailReadA => .step (Step.code .snTailReadA)
  | .snTailStop => .step (Step.code .snTailStop)
  | .snTailReadB => .step (Step.code .snTailReadB)
  | .snTailWaitIdle => .step (Step.code .snTailWaitIdle)
  | .snTailWaitRxne => .step (Step.code .snTailWaitRxne)
  | .snTailReadC => .step (Step.code .snTailReadC)

/-! ### The opcode table's numbering -/

/-- The word the opcode table means by `nbits` bits of value `w`. More than 8 bits: a `CMD` word. One byte: the
table has two one-byte formats and no bit that separates them, so a byte that is a used state code (0 to 42) is read
as `STEP` and any other as `ADDRBYTE` (log 12). -/
def tableWord (nbits w : Nat) : Encoded :=
  if 8 < nbits then .cmd (BitVec.ofNat 32 w)
  else if w % 256 < 43 then .step (BitVec.ofNat 6 w)
  else .addrByte (BitVec.ofNat 8 w)

/-- The instruction the decoder reads from a word numbered as the opcode table numbers it. -/
def decodeTableWord (nbits w : Nat) : Option Instr :=
  match decode (tableWord nbits w) with
  | .ok i => some i
  | .error _ => none

end Sys2Proof
end

