-- ==== Sys2Proof/Machine/Flags.lean ====
section
/-! DEFINITION. Status flags by name and the class of a wait that fails (R20, R203). The engine has no condition
codes of its own: no instruction computes a flag (R20, R107). -/

namespace Sys2Proof

/-- The value of one status flag (R42). -/
def Flags.get (fl : Flags) : Flag → Bool
  | .busy => fl.busy
  | .startSent => fl.startSent
  | .addrMatched => fl.addrMatched
  | .txDir => fl.txDir
  | .txEmpty => fl.txEmpty
  | .btf => fl.btf
  | .rxNotEmpty => fl.rxNotEmpty
  | .stopDetected => fl.stopDetected

end Sys2Proof

namespace Sys2Proof.Machine

/-- `class(f)`: the status code of an abort, fixed by the flag that was polled (R203). `stop_detected` is never
polled (R28); it is given the class of the flags R203 does not single out. -/
def abortClass : Flag → Status
  | .busy => .busBusyTimeout
  | .addrMatched => .noAcknowledge
  | .startSent | .txDir | .txEmpty | .btf | .rxNotEmpty | .stopDetected => .transferTimeout

/-- The number of each result code (R82). -/
def Status.code : Status → Nat
  | .ok => 0
  | .busBusyTimeout => 1
  | .noAcknowledge => 2
  | .transferTimeout => 3
  | .rejected => 4
  | .noResult => 7

end Sys2Proof.Machine
end

