-- ==== Sys2Proof/Machine/Operands.lean ====
section
/-! DEFINITION. Operand forms: the address bytes (R73), the successors chosen by an operand (R119, R148, R177,
R179), the states that read data (R106), the flag of the write's last wait (R123), and the command a word latches (R72). -/

namespace Sys2Proof.Machine

/-- `SLA_W(slave)` (R73, R98). -/
def slaWrite (slave : SlaveAddr) : Byte := addressByte slave 0

/-- `SLA_R(slave)` (R73, R99). -/
def slaRead (slave : SlaveAddr) : Byte := addressByte slave 1

/-- Where `P5_WAIT_BTF` goes: the two commands part here (R119). -/
def afterSelect (p : Params) (c : Command) : Step :=
  match c.dir with
  | .write => .w5Value
  | .read => if p.readInit then .r0AckSet else .r1Restart

/-- Dispatch: the first state of the path, by `cmd.length` alone (R148). -/
def firstOfPath (length : Nat) : Step :=
  if length = 1 then .s1AckClr else if length = 2 then .s2PosSet else .snAddrClr

/-- RDN: stream another byte, or go to the tail (R177 with `idx = 0`, R179 with the new `idx`). -/
def streamOrTail (idx length : Nat) : Step :=
  if idx < length - 3 then .snStreamWait else .snTailWaitBtf

/-- The states that take a byte from `data` (R106, R189). -/
def readsData : Step → Bool
  | .s1Read | .s2Read0 | .s2Read1 | .snStreamRead | .snTailReadA | .snTailReadB | .snTailReadC => true
  | _ => false

/-- The flag `W7_WAIT_END` polls (R123). -/
def finalFlag : FinalWait → Flag
  | .startSentClear => .startSent
  | .busIdle => .busy

/-- The command a legal write word latches: `cmd.length` is not written (R72, log 8). -/
def Command.latchWrite (slave : SlaveAddr) (reg value : Byte) (c : Command) : Command :=
  { c with dir := .write, slave := slave, reg := reg, value := value }

/-- The command a legal read word latches: `cmd.value` is not written (R72, log 8). -/
def Command.latchRead (slave : SlaveAddr) (reg : Byte) (length : Nat) (c : Command) : Command :=
  { c with dir := .read, slave := slave, reg := reg, length := length }

end Sys2Proof.Machine
end

