-- ==== Sys2Proof/Machine/Ops.lean ====
section
/-! DEFINITION. The shared operations: the six operations on the register interface (R42 to R47), the step kinds
(R91 to R93), the one operation that raises an abort or a rejection (R204, R207), the issue of a command (R95), the
signaler's nine primitives (R96 to R104) and the two data movers (R105, R106). -/

namespace Sys2Proof.Machine

/-! ### The six operations on the register interface -/

/-- Append one event to the history (R41). -/
def State.log (s : State) (e : Event) : State := { s with trace := s.trace ++ [e] }

/-- `BitSet(b)` (R43). -/
def State.bitSet (s : State) (b : Bit) : State :=
  match b with
  | .ackEnable => { s with ackEnable := true }.log (.bitSet .ackEnable)
  | .pos => { s with pos := true }.log (.bitSet .pos)
  | .start => { s with start := true }.log (.bitSet .start)
  | .stop => { s with stop := true }.log (.bitSet .stop)

/-- `BitClear(b)` (R44). -/
def State.bitClear (s : State) (b : Bit) : State :=
  match b with
  | .ackEnable => { s with ackEnable := false }.log (.bitClear .ackEnable)
  | .pos => { s with pos := false }.log (.bitClear .pos)
  | .start => { s with start := false }.log (.bitClear .start)
  | .stop => { s with stop := false }.log (.bitClear .stop)

/-- `DataWrite(v)` (R45). What it does to the flags is the environment's (R52, log 15). -/
def State.dataWrite (s : State) (v : Byte) : State := { s with data := v }.log (.dataWrite v)

/-- `AddrClear` (R47): the address-matched condition is cleared (R23). -/
def State.addrClear (s : State) : State :=
  { s with flags := { s.flags with addrMatched := false } }.log .addrClear

/-! ### Ends of a step and of a command -/

/-- `polls <- 0; step <- S`: a step that goes on to `S` (R91, R92). -/
def State.advance (s : State) (next : Step) : State := { s with polls := 0, step := next }

/-- `raise`: how a command ends by abort (R204) or rejection (R207); no operation on the register interface, and
the only places where a command ends other than by completion. An abort forgets `buf` in a write too (log 10). -/
def State.raise (s : State) (e : Exc) : State :=
  match e with
  | .abort code =>
    { s with status := code, done := true, polls := 0, step := .idle, buf := s.buf.map fun _ => .unspecified }
  | .reject => { s with status := .rejected, done := true, step := .idle }

/-- `complete(OK)` (R93): the return of the blocking call. There is no return from an abort (R212). -/
def State.complete (s : State) : State := { s with status := .ok, done := true, polls := 0, step := .idle }

/-! ### The step kinds -/

/-- The poll step `WAIT(f, want, _)` (R91): one `FlagRead(f)`, then `proceed` if it showed `want`; otherwise count,
and abort when the budget is spent (R202) or stay. It uses the present value of the flag (R42) and keeps nothing
of it (R238). -/
def State.wait (s : State) (f : Flag) (want : Bool) (proceed : State → State) : State :=
  let sampled := s.log (.flagRead f (s.flags.get f))
  if s.flags.get f = want then proceed sampled
  else if s.params.pollBudget = some (s.polls + 1) then sampled.raise (.abort (abortClass f))
  else { sampled with polls := s.polls + 1 }

/-! ### The issue of a command -/

/-- The host issues only at `IDLE`; at any other time the word is ignored and the mark set (R215, R19). -/
def State.issued (s : State) (accept : State → State) : State :=
  if s.step = .idle then accept s else { s with fault := true }

/-- The accepting branch of R95, with the latched command `c`. -/
def State.latch (s : State) (c : Command) : State :=
  { s with cmd := c, done := false, status := .noResult, polls := 0, step := .p1WaitIdle }

/-- A legal write word (R95, R110): no buffer is touched (log 9). -/
def State.beginWrite (s : State) (slave : SlaveAddr) (reg value : Byte) : State :=
  s.latch (s.cmd.latchWrite slave reg value)

/-- A legal read word (R95, R140): `buf` becomes `length` empty cells. -/
def State.beginRead (s : State) (slave : SlaveAddr) (reg : Byte) (length : Nat) : State :=
  { s.latch (s.cmd.latchRead slave reg length) with buf := List.replicate length .empty }

/-! ### The signaler (R96 to R104) and the data movers (R105, R106) -/

/-- `SIG_START`: a START, or a repeated START when a transaction is open (R96). -/
def State.sigStart (s : State) : State := s.bitSet .start

/-- `SIG_STOP` (R97). -/
def State.sigStop (s : State) : State := s.bitSet .stop

/-- `SIG_ADDR_W` for the slave address `slave` (R98). -/
def State.sigAddrW (s : State) (slave : SlaveAddr) : State := s.dataWrite (slaWrite slave)

/-- `SIG_ADDR_R` for the slave address `slave` (R99). -/
def State.sigAddrR (s : State) (slave : SlaveAddr) : State := s.dataWrite (slaRead slave)

/-- `SIG_ACK` (R100). -/
def State.sigAck (s : State) : State := { s.bitSet .ackEnable with ackPolicy := true }

/-- `SIG_NACK` (R101). -/
def State.sigNack (s : State) : State := { s.bitClear .ackEnable with ackPolicy := false }

/-- `SIG_POS_SET` (R102). -/
def State.sigPosSet (s : State) : State := s.bitSet .pos

/-- `SIG_POS_CLR` (R103). -/
def State.sigPosClr (s : State) : State := s.bitClear .pos

/-- `SIG_ADDR_CLEAR` (R104). -/
def State.sigAddrClear (s : State) : State := s.addrClear

/-- `DATA_TX(v)` (R105). -/
def State.dataTx (s : State) (v : Byte) : State := s.dataWrite v

/-- `DATA_RX(i)`: `v <- DataRead(); buf[i] <- v` (R46, R106). The byte is the one the environment presents in
`data` (R57); no flag is tested (log 15). -/
def State.dataRx (s : State) (i : Nat) : State :=
  { s with buf := s.buf.set i (.byte s.data) }.log (.dataRead s.data)

/-! ### The host's reading of the result (R17, R217) -/

/-- The byte in cell `i` of `buf`, or why the host may not have it: `buf` is the host's only after a read that ended
with `OK` (R17, R206, R217). Which of several reasons is given is log 11's; what a cell still holds after a write or a
rejection (logs 9 and 34) is out of the host's reach. -/
def State.hostReadBuf (s : State) (i : Nat) : Except Fault Byte :=
  if s.done = false then .error .bufReadBeforeDone
  else
    match s.buf[i]? with
    | none => .error .bufNoSuchCell
    | some .empty => .error .bufCellEmpty
    | some .unspecified => .error .bufCellUnspecified
    | some (.byte b) =>
      if s.status ≠ .ok then .error .bufAfterFailure
      else if s.cmd.dir = .write then .error .bufOfWrite
      else .ok b

/-- What a host read of `status` answers: the register, which holds `NONE` until there is a result (R16, R82). -/
def State.hostReadStatus (s : State) : Status := s.status

/-- The result of the last command as the host may take it: `status`, and only while `done` is true (R217). -/
def State.hostResult (s : State) : Option Status := if s.done = true then some s.hostReadStatus else none

end Sys2Proof.Machine
end

