-- ==== Sys2Proof/Machine/Bus.lean ====
section
/-! DEFINITION. The environment: its free moves (R57) and one simulated conforming controller with its slaves (R58 to
R66), the fixture the source's properties need. The fixture is one conforming environment among many; where the
spec leaves a choice, logs 19 to 22 and 35 to 39 name the one taken. -/

namespace Sys2Proof.Machine

/-- The environment moves: every field it may change takes the value the move gives (R20, R57, R90). `ack_enable`
and `pos` are not among them (R243), and no field of the engine is. -/
def State.envMove (s : State) (m : EnvMove) : State :=
  { s with
    flags := m.flags, start := m.start, stop := m.stop, data := m.data
    bus :=
      { phase := m.phase, slave := m.slave, ptr := m.ptr, shift := m.shift, ackNext := m.ackNext
        present := m.present, mem := s.bus.mem.writeAll m.slaveRegs, wire := s.bus.wire ++ m.wire } }

/-- The environment moves freely: nothing constrains the move (log 3). -/
def State.envFree (s : State) : State := { s.envMove (Config.freeMove s.tick) with tick := s.tick + 1 }

/-! ### A conforming controller and its slaves -/

/-- Put symbols on the wire. -/
def State.onWire (s : State) (l : List Symbol) : State :=
  { s with bus := { s.bus with wire := s.bus.wire ++ l } }

/-- A START on an idle bus, a repeated START inside a transaction; then `start_sent` is set and `busy` shows the open
transaction (R58, R59). The command bit is taken. DESIGN CHOICE: whatever the open transaction was doing, and
`addr_matched` becomes clear (log 38). -/
def State.busStart (s : State) : State :=
  let t := s.onWire [if s.bus.phase = .idle then .start else .restart]
  { t with
    start := false
    flags := { s.flags with busy := true, startSent := true, addrMatched := false }
    bus := { t.bus with phase := .started } }

/-- The STOP goes on the wire, the bus is released and the controller returns to its idle state (R58, R59, R64). Which
flags keep their value is log 38's. -/
def State.busStop (s : State) : State :=
  let t := s.onWire [.stop]
  { t with
    stop := false
    flags := { s.flags with busy := false, startSent := false, txDir := false }
    bus := { t.bus with phase := .idle } }

/-- The address byte (R60): a slave that is present acknowledges. DESIGN CHOICE: in the read direction an unread byte
that an aborted read left in `data` or in the shift register is dropped (log 35); an address byte that a slave
acknowledges clears `btf`, one that none acknowledges leaves it as it was (log 36); the register index a slave was
last given stays (log 38). A byte written over an unread one, in either direction, has replaced it in `data`, and in the
write direction `rx_not_empty` stays 1 (log 35). `tx_empty` keeps its value in the read direction, and so all through the
reception (log 38). -/
def State.busAddress (s : State) (b : Byte) : State :=
  let slave : SlaveAddr := b.extractLsb' 1 7
  if s.bus.present.contains slave then
    let t := s.onWire [.byte b true]
    if b.getLsbD 0 = false then
      { t with
        flags := { s.flags with addrMatched := true, txDir := true, txEmpty := true, btf := false }
        bus := { t.bus with phase := .select, slave := slave } }
    else
      { t with
        flags := { s.flags with addrMatched := true, txDir := false, btf := false, rxNotEmpty := false }
        bus := { t.bus with phase := .armed, slave := slave, shift := none } }
  else
    let t := s.onWire [.byte b false]
    { t with flags := { s.flags with addrMatched := false }, bus := { t.bus with phase := .deaf } }

/-- A data byte in transmission: the first is the register index, the second the value to store (R65); it is shifted
out and acknowledged (R61). DESIGN CHOICE: it always is; a third byte replaces the second; a byte written at any other
time is not sent (log 38); one written over an unread received byte has replaced it in `data`, `rx_not_empty` staying
1 (log 35). -/
def State.busTransmit (s : State) (b : Byte) : State :=
  match s.bus.phase with
  | .started => s.busAddress b
  | .select =>
    let t := s.onWire [.byte b true]
    { t with
      flags := { s.flags with txEmpty := true, btf := true }
      bus := { t.bus with phase := .store, ptr := b.toNat } }
  | .store =>
    let t := s.onWire [.byte b true]
    { t with
      flags := { s.flags with txEmpty := true, btf := true }
      bus := { t.bus with mem := s.bus.mem.write (slaveCell s.bus.slave (BitVec.ofNat 8 s.bus.ptr)) b } }
  | .idle | .armed | .receiving | .drained | .deaf => s

/-- What the addressed slave sends next: the content of the register at its index (R65), or, past the last
register, a free value (R50). -/
def Bus.sends (b : Bus) : Byte :=
  if b.ptr < 256 then b.mem.read (slaveCell b.slave (BitVec.ofNat 8 b.ptr))
  else Config.pastEndByte b.slave b.ptr

/-- The acknowledge of the byte now arriving (R63, log 20): `ack_enable`, or with `pos` set the value it had when the byte
before arrived. -/
def State.acknowledge (s : State) : Bool := if s.pos then s.bus.ackNext else s.ackEnable

/-- One byte arrives: into `data` if it is free, else into the shift register (R62), acknowledged or not (R63); the
slave steps to the next register or stops (R65); a STOP that was asked for follows the byte (R64). -/
def State.busReceive (s : State) : State :=
  let b := s.bus.sends
  let ack := s.acknowledge
  let t := s.onWire [.byte b ack]
  let bus := { t.bus with
    ptr := s.bus.ptr + 1, ackNext := s.ackEnable, phase := if ack then .receiving else .drained }
  let u :=
    if s.flags.rxNotEmpty then
      { t with flags := { s.flags with btf := true }, bus := { bus with shift := some b } }
    else { t with data := b, flags := { s.flags with rxNotEmpty := true }, bus := bus }
  if s.stop then u.busStop else u

/-- The controller holds the bus: `data` and the shift register each hold a byte, and none is being received until
`data` is read (R62). -/
def State.busHeld (s : State) : Bool := s.flags.rxNotEmpty && s.bus.shift.isSome

/-- Time passes while the engine polls `f`: the condition ends by itself in the transmit direction once `tx_dir` has
been read (92_eei_decisions.md D10, log 22), and one more byte arrives if the controller can hold it (R62). That time
passes only so is log 38's. -/
def State.busIdleTime (s : State) (f : Flag) : State :=
  match s.bus.phase with
  | .select => if f = .txDir then { s with flags := { s.flags with addrMatched := false } } else s
  | .receiving => if s.busHeld then s else s.busReceive
  | .idle | .started | .store | .armed | .drained | .deaf => s

/-- What a data read about to be made finds: the unread byte (R62), or, when there is none, any byte (R106,
93_implementation_defined.md U9): a free value (log 39). -/
def State.busPresent (s : State) : State :=
  if readsData s.step && !s.flags.rxNotEmpty then { s with data := Config.noByte s.tick, tick := s.tick + 1 } else s

/-- A data read has been made: a complete byte in the shift register moves into `data` (R62). -/
def State.busTaken (s : State) : State :=
  match s.bus.shift with
  | some b => { s with data := b, flags := { s.flags with btf := false }, bus := { s.bus with shift := none } }
  | none => { s with flags := { s.flags with rxNotEmpty := false, btf := false } }

/-- A STOP is asked for: after the byte being received, or at once where none is, the controller holding the bus (R62)
or waiting for the address-matched condition to be cleared (R60) among these (R64). DESIGN CHOICE: on an idle bus nothing
goes on the wire and the bit is cleared (log 37). -/
def State.busStopAsked (s : State) : State :=
  match s.bus.phase with
  | .receiving => if s.busHeld then s.busStop else s
  | .idle => { s with stop := false }
  | .started | .select | .store | .armed | .drained | .deaf => s.busStop

/-- The conforming controller's reaction to one operation of the engine. An `AddrClear` with no read-direction address
just acknowledged starts nothing (log 38). -/
def State.react (s : State) (e : Event) : State :=
  match e with
  | .bitSet .start => s.busStart
  | .bitSet .stop => s.busStopAsked
  | .dataWrite v => s.busTransmit v
  | .dataRead _ => s.busTaken
  | .addrClear =>
    if s.bus.phase = .armed then { s with bus := { s.bus with phase := .receiving, ackNext := s.ackEnable } } else s
  | .flagRead f _ => s.busIdleTime f
  | .bitSet .ackEnable | .bitSet .pos | .bitClear _ => s

end Sys2Proof.Machine
end

