-- ==== Sys2Proof/Machine/AddrByte.lean ====
section
/-! DEFINITION. The two `ADDRBYTE` rows: the signaler's primitives as operations by themselves (R98, R99). A primitive "is the
operation part of an emit step" (R96 to R104), so it writes `data` and the trace and does not move `step`; the states
`P3_ADDR_W` and `R2_ADDR_R` perform it with `cmd.slave` (log 12). -/

namespace Sys2Proof.Machine

/-- `SLA_W` (R98): `DataWrite(SLA_W(slave))`. -/
def execSlaW (slave : SlaveAddr) (s : State) : Host.Outcome State Fault Refusal := .next (s.sigAddrW slave)

/-- `SLA_R` (R99): `DataWrite(SLA_R(slave))`. -/
def execSlaR (slave : SlaveAddr) (s : State) : Host.Outcome State Fault Refusal := .next (s.sigAddrR slave)

end Sys2Proof.Machine
end

