-- ==== Sys2Proof/Machine/Cmd.lean ====
section
/-! DEFINITION. The six `CMD` rows: what the host's issue of each word does (R76 to R78, R95, R207, R215). At any state but
`IDLE` the word is ignored and the mark `fault` set. -/

namespace Sys2Proof.Machine

/-- `WR` (R110): the issue of a write; the sequencer then runs R111 to R123. -/
def execWr (slave : SlaveAddr) (reg value : Byte) (s : State) :
    Host.Outcome State Fault Refusal :=
  .next (s.issued (·.beginWrite slave reg value))

/-- `WR_RESERVED` (R78): rejected, no event (R207). -/
def execWrReserved (_slave : SlaveAddr) (_reg _value _reserved : Byte) (s : State) :
    Host.Outcome State Fault Refusal :=
  .next (s.issued (·.raise .reject))

/-- `RD0` (R77): rejected, no event (R207). -/
def execRd0 (_slave : SlaveAddr) (_reg : Byte) (s : State) :
    Host.Outcome State Fault Refusal :=
  .next (s.issued (·.raise .reject))

/-- `RD1` (R160): the issue of a read of one byte; path R161 to R165. -/
def execRd1 (slave : SlaveAddr) (reg : Byte) (s : State) :
    Host.Outcome State Fault Refusal :=
  .next (s.issued (·.beginRead slave reg 1))

/-- `RD2` (R167): the issue of a read of two bytes; path R168 to R174. -/
def execRd2 (slave : SlaveAddr) (reg : Byte) (s : State) :
    Host.Outcome State Fault Refusal :=
  .next (s.issued (·.beginRead slave reg 2))

/-- `RDN` (R176): the issue of a read of `length` bytes, three or more; path R177 to R187. -/
def execRdn (slave : SlaveAddr) (reg : Byte) (length : LengthField) (s : State) :
    Host.Outcome State Fault Refusal :=
  .next (s.issued (·.beginRead slave reg length.toNat))

end Sys2Proof.Machine
end

