-- ==== Sys2Proof/Machine/Prefix.lean ====
section
/-! DEFINITION. `IDLE` and the nine states both commands share: source steps 1 to 5 up to the second wait (R111 to R119). -/

namespace Sys2Proof.Machine

/-- `IDLE`, code 0: the engine has no step of its own (R90); what leaves `IDLE` is the host's issue (R95, log 14). -/
def execIdle (s : State) : Host.Outcome State Fault Refusal := .next s

/-- `P1_WAIT_IDLE` (R111): `WAIT(busy, 0, P2_START)`. -/
def execP1WaitIdle (s : State) : Host.Outcome State Fault Refusal := .next (s.wait .busy false (·.advance .p2Start))

/-- `P2_START` (R112): `EMIT(SIG_START, P2_WAIT_SB)`. -/
def execP2Start (s : State) : Host.Outcome State Fault Refusal := .next (s.sigStart.advance .p2WaitSb)

/-- `P2_WAIT_SB` (R113): `WAIT(start_sent, 1, P3_ADDR_W)`. -/
def execP2WaitSb (s : State) : Host.Outcome State Fault Refusal := .next (s.wait .startSent true (·.advance .p3AddrW))

/-- `P3_ADDR_W` (R114): `EMIT(SIG_ADDR_W, P3_WAIT_ADDR)`. -/
def execP3AddrW (s : State) : Host.Outcome State Fault Refusal := .next ((s.sigAddrW s.cmd.slave).advance .p3WaitAddr)

/-- `P3_WAIT_ADDR` (R115): `WAIT(addr_matched, 1, P3_WAIT_TRA)`. -/
def execP3WaitAddr (s : State) :
    Host.Outcome State Fault Refusal :=
  .next (s.wait .addrMatched true (·.advance .p3WaitTra))

/-- `P3_WAIT_TRA` (R116): `WAIT(tx_dir, 1, P4_WAIT_TXE)`; no `AddrClear`. -/
def execP3WaitTra (s : State) : Host.Outcome State Fault Refusal := .next (s.wait .txDir true (·.advance .p4WaitTxe))

/-- `P4_WAIT_TXE` (R117): `WAIT(tx_empty, 1, P4_REG)`. -/
def execP4WaitTxe (s : State) : Host.Outcome State Fault Refusal := .next (s.wait .txEmpty true (·.advance .p4Reg))

/-- `P4_REG` (R118): `EMIT(DATA_TX(cmd.reg), P5_WAIT_BTF)`. -/
def execP4Reg (s : State) : Host.Outcome State Fault Refusal := .next ((s.dataTx s.cmd.reg).advance .p5WaitBtf)

/-- `P5_WAIT_BTF` (R119): poll `btf` for 1; the successor is chosen by `cmd.dir` and `READ_INIT`. -/
def execP5WaitBtf (s : State) :
    Host.Outcome State Fault Refusal :=
  .next (s.wait .btf true (·.advance (afterSelect s.params s.cmd)))

end Sys2Proof.Machine
end

