-- ==== Sys2Proof/Machine/Rd1.lean ====
section
/-! DEFINITION. The path RD1, one byte: NACK, clear address-matched, STOP, wait, read (R160 to R165). -/

namespace Sys2Proof.Machine

/-- `S1_ACK_CLR` (R161): `EMIT(SIG_NACK, S1_ADDR_CLR)`. -/
def execS1AckClr (s : State) : Host.Outcome State Fault Refusal := .next (s.sigNack.advance .s1AddrClr)

/-- `S1_ADDR_CLR` (R162): `EMIT(SIG_ADDR_CLEAR, S1_STOP)`. -/
def execS1AddrClr (s : State) : Host.Outcome State Fault Refusal := .next (s.sigAddrClear.advance .s1Stop)

/-- `S1_STOP` (R163): `EMIT(SIG_STOP, S1_WAIT_RXNE)`. -/
def execS1Stop (s : State) : Host.Outcome State Fault Refusal := .next (s.sigStop.advance .s1WaitRxne)

/-- `S1_WAIT_RXNE` (R164): `WAIT(rx_not_empty, 1, S1_READ)`. -/
def execS1WaitRxne (s : State) :
    Host.Outcome State Fault Refusal :=
  .next (s.wait .rxNotEmpty true (·.advance .s1Read))

/-- `S1_READ` (R165): `DATA_RX(0)`, then `complete(OK)`. -/
def execS1Read (s : State) : Host.Outcome State Fault Refusal := .next (s.dataRx 0).complete

end Sys2Proof.Machine
end

