-- ==== Sys2Proof/Machine/Rd2.lean ====
section
/-! DEFINITION. The path RD2, two bytes: POS, clear address-matched, NACK, wait, STOP, read, read (R167 to R174). -/

namespace Sys2Proof.Machine

/-- `S2_POS_SET` (R168): `EMIT(SIG_POS_SET, S2_ADDR_CLR)`. -/
def execS2PosSet (s : State) : Host.Outcome State Fault Refusal := .next (s.sigPosSet.advance .s2AddrClr)

/-- `S2_ADDR_CLR` (R169): `EMIT(SIG_ADDR_CLEAR, S2_ACK_CLR)`. -/
def execS2AddrClr (s : State) : Host.Outcome State Fault Refusal := .next (s.sigAddrClear.advance .s2AckClr)

/-- `S2_ACK_CLR` (R170): `EMIT(SIG_NACK, S2_WAIT_BTF)`. -/
def execS2AckClr (s : State) : Host.Outcome State Fault Refusal := .next (s.sigNack.advance .s2WaitBtf)

/-- `S2_WAIT_BTF` (R171): `WAIT(btf, 1, S2_STOP)`. -/
def execS2WaitBtf (s : State) : Host.Outcome State Fault Refusal := .next (s.wait .btf true (·.advance .s2Stop))

/-- `S2_STOP` (R172): `EMIT(SIG_STOP, S2_READ0)`. -/
def execS2Stop (s : State) : Host.Outcome State Fault Refusal := .next (s.sigStop.advance .s2Read0)

/-- `S2_READ0` (R173): `EMIT(DATA_RX(0), S2_READ1)`. -/
def execS2Read0 (s : State) : Host.Outcome State Fault Refusal := .next ((s.dataRx 0).advance .s2Read1)

/-- `S2_READ1` (R174): `DATA_RX(1)`, then `complete(OK)`. -/
def execS2Read1 (s : State) : Host.Outcome State Fault Refusal := .next (s.dataRx 1).complete

end Sys2Proof.Machine
end

