-- ==== Sys2Proof/Machine/Rdn.lean ====
section
/-! DEFINITION. The path RDN, three bytes or more: clear address-matched, stream `length - 3` bytes, then the tail of three
(R176 to R187). `cmd.length >= 3` in all these states, so no subtraction underflows (R107, log 24). -/

namespace Sys2Proof.Machine

/-- `SN_ADDR_CLR` (R177): `AddrClear`, `idx <- 0`, then stream or tail. -/
def execSnAddrClr (s : State) :
    Host.Outcome State Fault Refusal :=
  .next ({ s.sigAddrClear with idx := 0 }.advance (streamOrTail 0 s.cmd.length))

/-- `SN_STREAM_WAIT` (R178): `WAIT(btf, 1, SN_STREAM_READ)`. -/
def execSnStreamWait (s : State) :
    Host.Outcome State Fault Refusal :=
  .next (s.wait .btf true (·.advance .snStreamRead))

/-- `SN_STREAM_READ` (R179): `DATA_RX(idx)`, `idx <- idx + 1`, then stream or tail by the new `idx`. -/
def execSnStreamRead (s : State) :
    Host.Outcome State Fault Refusal :=
  .next ({ s.dataRx s.idx with idx := s.idx + 1 }.advance (streamOrTail (s.idx + 1) s.cmd.length))

/-- `SN_TAIL_WAIT_BTF` (R180): `WAIT(btf, 1, SN_TAIL_ACK_CLR)`. -/
def execSnTailWaitBtf (s : State) :
    Host.Outcome State Fault Refusal :=
  .next (s.wait .btf true (·.advance .snTailAckClr))

/-- `SN_TAIL_ACK_CLR` (R181): `EMIT(SIG_NACK, SN_TAIL_READ_A)`. -/
def execSnTailAckClr (s : State) : Host.Outcome State Fault Refusal := .next (s.sigNack.advance .snTailReadA)

/-- `SN_TAIL_READ_A` (R182): `EMIT(DATA_RX(cmd.length - 3), SN_TAIL_STOP)`. -/
def execSnTailReadA (s : State) :
    Host.Outcome State Fault Refusal :=
  .next ((s.dataRx (s.cmd.length - 3)).advance .snTailStop)

/-- `SN_TAIL_STOP` (R183): `EMIT(SIG_STOP, SN_TAIL_READ_B)`. -/
def execSnTailStop (s : State) : Host.Outcome State Fault Refusal := .next (s.sigStop.advance .snTailReadB)

/-- `SN_TAIL_READ_B` (R184): `EMIT(DATA_RX(cmd.length - 2), SN_TAIL_WAIT_IDLE)`. -/
def execSnTailReadB (s : State) :
    Host.Outcome State Fault Refusal :=
  .next ((s.dataRx (s.cmd.length - 2)).advance .snTailWaitIdle)

/-- `SN_TAIL_WAIT_IDLE` (R185): `WAIT(busy, 0, SN_TAIL_WAIT_RXNE)`. -/
def execSnTailWaitIdle (s : State) :
    Host.Outcome State Fault Refusal :=
  .next (s.wait .busy false (·.advance .snTailWaitRxne))

/-- `SN_TAIL_WAIT_RXNE` (R186): `WAIT(rx_not_empty, 1, SN_TAIL_READ_C)`. -/
def execSnTailWaitRxne (s : State) :
    Host.Outcome State Fault Refusal :=
  .next (s.wait .rxNotEmpty true (·.advance .snTailReadC))

/-- `SN_TAIL_READ_C` (R187): `DATA_RX(cmd.length - 1)`, then `complete(OK)`. -/
def execSnTailReadC (s : State) : Host.Outcome State Fault Refusal := .next (s.dataRx (s.cmd.length - 1)).complete

end Sys2Proof.Machine
end

