-- ==== Sys2Proof/Machine/ReadOpen.lean ====
section
/-! DEFINITION. The opening of the read phase and the dispatch on length (R142 to R148). -/

namespace Sys2Proof.Machine

/-- `R0_ACK_SET` (R142): `EMIT(SIG_ACK, R0_POS_CLR)`. -/
def execR0AckSet (s : State) : Host.Outcome State Fault Refusal := .next (s.sigAck.advance .r0PosClr)

/-- `R0_POS_CLR` (R143): `EMIT(SIG_POS_CLR, R1_RESTART)`. -/
def execR0PosClr (s : State) : Host.Outcome State Fault Refusal := .next (s.sigPosClr.advance .r1Restart)

/-- `R1_RESTART` (R144): `EMIT(SIG_START, R1_WAIT_SB)`, a repeated START. -/
def execR1Restart (s : State) : Host.Outcome State Fault Refusal := .next (s.sigStart.advance .r1WaitSb)

/-- `R1_WAIT_SB` (R145): `WAIT(start_sent, 1, R2_ADDR_R)`. -/
def execR1WaitSb (s : State) : Host.Outcome State Fault Refusal := .next (s.wait .startSent true (·.advance .r2AddrR))

/-- `R2_ADDR_R` (R146): `EMIT(SIG_ADDR_R, R2_WAIT_ADDR)`. -/
def execR2AddrR (s : State) : Host.Outcome State Fault Refusal := .next ((s.sigAddrR s.cmd.slave).advance .r2WaitAddr)

/-- `R2_WAIT_ADDR` (R147, R148): poll `addr_matched` for 1; the successor is the first state of the path. -/
def execR2WaitAddr (s : State) :
    Host.Outcome State Fault Refusal :=
  .next (s.wait .addrMatched true (·.advance (firstOfPath s.cmd.length)))

end Sys2Proof.Machine
end

