-- ==== Sys2Proof/Machine/WriteTail.lean ====
section
/-! DEFINITION. The four states of the write's own tail: source steps 5 (second half) to 7 (R120 to R123). -/

namespace Sys2Proof.Machine

/-- `W5_VALUE` (R120): `EMIT(DATA_TX(cmd.value), W6_WAIT_BTF)`. -/
def execW5Value (s : State) : Host.Outcome State Fault Refusal := .next ((s.dataTx s.cmd.value).advance .w6WaitBtf)

/-- `W6_WAIT_BTF` (R121): `WAIT(btf, 1, W6_STOP)`, sampled anew. -/
def execW6WaitBtf (s : State) : Host.Outcome State Fault Refusal := .next (s.wait .btf true (·.advance .w6Stop))

/-- `W6_STOP` (R122): `EMIT(SIG_STOP, W7_WAIT_END)`. -/
def execW6Stop (s : State) : Host.Outcome State Fault Refusal := .next (s.sigStop.advance .w7WaitEnd)

/-- `W7_WAIT_END` (R123): poll the flag `WR_FINAL_WAIT` names for 0, then `complete(OK)`. -/
def execW7WaitEnd (s : State) :
    Host.Outcome State Fault Refusal :=
  .next (s.wait (finalFlag s.params.finalWait) false (·.complete))

end Sys2Proof.Machine
end

