-- ==== Sys2Proof/Machine/Dispatch.lean ====
section
/-! DEFINITION. One arm per instruction, each one call of its meaning. -/

namespace Sys2Proof.Machine

def exec (i : Instr) (s : State) : Host.Outcome State Fault Refusal :=
  match i with
  -- the host's command words
  | .wr slave reg value => Sys2Proof.Machine.execWr slave reg value s
  | .wrReserved slave reg value reserved => Sys2Proof.Machine.execWrReserved slave reg value reserved s
  | .rd0 slave reg => Sys2Proof.Machine.execRd0 slave reg s
  | .rd1 slave reg => Sys2Proof.Machine.execRd1 slave reg s
  | .rd2 slave reg => Sys2Proof.Machine.execRd2 slave reg s
  | .rdn slave reg length => Sys2Proof.Machine.execRdn slave reg length s
  -- the signaler's address bytes
  | .slaW slave => Sys2Proof.Machine.execSlaW slave s
  | .slaR slave => Sys2Proof.Machine.execSlaR slave s
  -- the sequencer states
  | .idle => Sys2Proof.Machine.execIdle s
  | .p1WaitIdle => Sys2Proof.Machine.execP1WaitIdle s
  | .p2Start => Sys2Proof.Machine.execP2Start s
  | .p2WaitSb => Sys2Proof.Machine.execP2WaitSb s
  | .p3AddrW => Sys2Proof.Machine.execP3AddrW s
  | .p3WaitAddr => Sys2Proof.Machine.execP3WaitAddr s
  | .p3WaitTra => Sys2Proof.Machine.execP3WaitTra s
  | .p4WaitTxe => Sys2Proof.Machine.execP4WaitTxe s
  | .p4Reg => Sys2Proof.Machine.execP4Reg s
  | .p5WaitBtf => Sys2Proof.Machine.execP5WaitBtf s
  | .w5Value => Sys2Proof.Machine.execW5Value s
  | .w6WaitBtf => Sys2Proof.Machine.execW6WaitBtf s
  | .w6Stop => Sys2Proof.Machine.execW6Stop s
  | .w7WaitEnd => Sys2Proof.Machine.execW7WaitEnd s
  | .r0AckSet => Sys2Proof.Machine.execR0AckSet s
  | .r0PosClr => Sys2Proof.Machine.execR0PosClr s
  | .r1Restart => Sys2Proof.Machine.execR1Restart s
  | .r1WaitSb => Sys2Proof.Machine.execR1WaitSb s
  | .r2AddrR => Sys2Proof.Machine.execR2AddrR s
  | .r2WaitAddr => Sys2Proof.Machine.execR2WaitAddr s
  | .s1AckClr => Sys2Proof.Machine.execS1AckClr s
  | .s1AddrClr => Sys2Proof.Machine.execS1AddrClr s
  | .s1Stop => Sys2Proof.Machine.execS1Stop s
  | .s1WaitRxne => Sys2Proof.Machine.execS1WaitRxne s
  | .s1Read => Sys2Proof.Machine.execS1Read s
  | .s2PosSet => Sys2Proof.Machine.execS2PosSet s
  | .s2AddrClr => Sys2Proof.Machine.execS2AddrClr s
  | .s2AckClr => Sys2Proof.Machine.execS2AckClr s
  | .s2WaitBtf => Sys2Proof.Machine.execS2WaitBtf s
  | .s2Stop => Sys2Proof.Machine.execS2Stop s
  | .s2Read0 => Sys2Proof.Machine.execS2Read0 s
  | .s2Read1 => Sys2Proof.Machine.execS2Read1 s
  | .snAddrClr => Sys2Proof.Machine.execSnAddrClr s
  | .snStreamWait => Sys2Proof.Machine.execSnStreamWait s
  | .snStreamRead => Sys2Proof.Machine.execSnStreamRead s
  | .snTailWaitBtf => Sys2Proof.Machine.execSnTailWaitBtf s
  | .snTailAckClr => Sys2Proof.Machine.execSnTailAckClr s
  | .snTailReadA => Sys2Proof.Machine.execSnTailReadA s
  | .snTailStop => Sys2Proof.Machine.execSnTailStop s
  | .snTailReadB => Sys2Proof.Machine.execSnTailReadB s
  | .snTailWaitIdle => Sys2Proof.Machine.execSnTailWaitIdle s
  | .snTailWaitRxne => Sys2Proof.Machine.execSnTailWaitRxne s
  | .snTailReadC => Sys2Proof.Machine.execSnTailReadC s

end Sys2Proof.Machine
end

