-- ==== Sys2Proof/Machine/Turns.lean ====
section
/-! DEFINITION. One turn of one agent: the engine (R90), the host (R95, R217), the reset event (R230), the platform
(R232), the environment (R57). -/

namespace Sys2Proof.Machine

/-- The engine's step: the one its `step` register names (R90, R12). -/
def State.engineTurn (s : State) : Host.Outcome State Fault Refusal := exec s.step.instr s

/-- The engine's step against the conforming controller: the controller presents the byte of a data read, the engine
performs its operation, and the controller reacts to it (R58 to R66, logs 19 and 39). -/
def State.conformingTurn (s : State) : Host.Outcome State Fault Refusal :=
  match s.busPresent.engineTurn with
  | .next t => .next ((t.trace.drop s.trace.length).foldl State.react t)
  | .fault r => .fault r
  | .refused r => .refused r

/-- The host's issue of a command word (R95): the word is decoded and its row executed. -/
def State.issueTurn (s : State) (w : CmdWord) : Host.Outcome State Fault Refusal := exec (decodeCmd w) s

/-- The reset event (R230): the engine's fields take their reset values; no operation is performed and the
controller's fields are as they were. `cmd`, `idx` and `ack_policy` hold no value after it and take the values log 4
names. -/
def State.resetEvent (s : State) : State :=
  { s with
    step := .idle, done := false, status := .noResult, fault := false, polls := 0, buf := [], trace := []
    cmd := Command.blank, idx := 0, ackPolicy := false }

/-- The platform writes the two control bits that outlive a command (R232 item 4, R243); while a command runs that
is concurrent use, which the model refuses (R214, 93_implementation_defined.md U3). -/
def State.platformTurn (s : State) (ackEnable pos : Bool) : Host.Outcome State Fault Refusal :=
  if s.step = .idle then .next { s with ackEnable := ackEnable, pos := pos } else .refused .concurrentAccess

/-- The host reads a cell of `buf` (R17, R217): nothing changes, and a read the host may not make faults. -/
def State.readBufTurn (s : State) (i : Nat) : Host.Outcome State Fault Refusal :=
  match s.hostReadBuf i with
  | .ok _ => .next s
  | .error e => .fault e

/-- The host reads `status`: `State.hostReadStatus` is the answer and nothing changes (R16). -/
def State.readStatusTurn (s : State) : Host.Outcome State Fault Refusal := .next s

/-- One scripted turn. -/
def State.take (s : State) (t : Turn) : Host.Outcome State Fault Refusal :=
  match t with
  | .engine => s.engineTurn
  | .conforming => s.conformingTurn
  | .env m => .next (s.envMove m)
  | .issue w => s.issueTurn w
  | .reset => .next s.resetEvent
  | .platform ackEnable pos => s.platformTurn ackEnable pos
  | .readBuf i => s.readBufTurn i
  | .readStatus => s.readStatusTurn

/-- The agent whose turn it is moves: the next scripted turn, or, when none is pending, a free move of the
environment followed by the engine's step (logs 2 and 3). -/
def State.nextTurn (s : State) : Host.Outcome State Fault Refusal :=
  match s.turns with
  | t :: rest => { s with turns := rest }.take t
  | [] => s.envFree.engineTurn

/-- `s` with an encoded word placed where the next step finds its instruction: a command word in the host's hands,
a state code in `step`, an address byte as `cmd.slave` with the state that sends it (logs 12 and 13). -/
def State.place (s : State) (w : Encoded) : State :=
  match w with
  | .cmd c => { s with turns := .issue c :: s.turns }
  | .step c =>
    match Step.ofCode c with
    | some n => { s with step := n, turns := .engine :: s.turns }
    | none => s
  | .addrByte b =>
    { s with
      cmd := { s.cmd with slave := b.extractLsb' 1 7 }
      step := if b.getLsbD 0 = false then .p3AddrW else .r2AddrR
      turns := .engine :: s.turns }

end Sys2Proof.Machine
end

