-- ==== Sys2Proof/Machine/Step.lean ====
section
/-! DEFINITION. One step of the machine, and how the host of the pipeline places a word for it. -/

namespace Sys2Proof.Machine

/-- One step: one turn of the agent whose turn it is (R90, R35). -/
def step (s : State) : Host.Outcome State Fault Refusal := s.nextTurn

/-- `s` with the word `w` of `nbits` bits placed so that the very next step runs it (log 13). -/
def State.withFetchWord (s : State) (nbits w : Nat) : State := s.place (tableWord nbits w)

end Sys2Proof.Machine
end

