-- ==== Sys2Proof/Machine/Platform.lean ====
section
/-! DEFINITION. What the spec says of the parts around the engine that call it or use its result (R218 to R220, R84):
the words the two drivers issue, what the accelerometer driver makes of the six bytes of `buf`, and the table of the UI
machine. They are outside the engine (R4): no step uses them and State holds none of them (log 29). -/

namespace Sys2Proof.Machine

/-- The display driver's one call: a command and data byte pair as one `WR` to the display's address, which the spec
does not give (R218). -/
def displayPair (display : SlaveAddr) (command dataByte : Byte) : CmdWord := encodeWrite display command dataByte 0

/-- The accelerometer's slave address in the source's scenario (R53, R219). -/
def accelAddress : SlaveAddr := 0x1D

/-- `write(0x1D, 0x2A, 0x19)`: accelerometer `CTRL_REG1`, active mode (R219). -/
def accelActivate : CmdWord := encodeWrite accelAddress 0x2A 0x19 0

/-- `read(0x1D, 0x01, buf[6])`: the burst read of the X, Y and Z sample registers (R219). -/
def accelBurst : CmdWord := encodeRead accelAddress 0x01 6

/-- One axis of the burst (R219): a big-endian signed 16-bit value, left-justified, whose two low bits the driver
drops. -/
def axisSample (high low : Byte) : Int := (high ++ low : BitVec 16).toInt / 4

/-- The three axes of the burst (R219). -/
inductive Axis where
  | x
  | y
  | z
  deriving DecidableEq, Repr

/-- The number `j` of an axis (R219): X, Y, Z are 0, 1, 2. -/
def Axis.number : Axis → Nat
  | .x => 0
  | .y => 1
  | .z => 2

/-- The sample of axis `j` after the burst (R219): high byte `buf[2j]`, low byte `buf[2j+1]`, each taken as the host may
take it (R217). -/
def State.accelSample (s : State) (a : Axis) : Except Fault Int := do
  let high ← s.hostReadBuf (2 * a.number)
  let low ← s.hostReadBuf (2 * a.number + 1)
  return axisSample high low

/-- The states of the UI machine (R220). DESIGN CHOICE: the page of `Config(page)`, to which the spec gives no type, is a
natural number (log 29). -/
inductive UiState where
  | idle
  | soldering
  | temperatureControl
  | config (page : Nat)
  | sleep
  | cooling
  | thermometer
  deriving DecidableEq, Repr

/-- The key events of the UI machine (R220). -/
inductive Key where
  | a
  | b
  | ab
  | none
  deriving DecidableEq, Repr

/-- The UI machine's next state (R220); the key is then reset to `none`. DESIGN CHOICE: the accelerometer vector, which the
spec lists as an input and gives no use, is no argument (log 29). -/
def uiNext (u : UiState) (k : Key) : UiState × Key :=
  let next :=
    match u, k with
    | u, .none => u
    | .idle, .a => .soldering
    | .idle, .b => .thermometer
    | .soldering, .a => .temperatureControl
    | .soldering, .b => .temperatureControl
    | .soldering, .ab => .idle
    | _, _ => .idle
  (next, .none)

end Sys2Proof.Machine
end

