-- ==== Sys2Proof/Safety.lean ====
section
/-! DEFINITION. What counts as a safe run, in the terms the statements use: the invariants every turn keeps, the
kinds of sequencer state, the script of a command (R124, R149, R166, R175, R188) and what it means for a trace to
follow it. -/

namespace Sys2Proof.Machine

/-- The next state of an outcome, if it is one. -/
def nextOf (o : Host.Outcome State Fault Refusal) : Option State :=
  match o with
  | .next s => some s
  | .fault _ => none
  | .refused _ => none

/-! ### Kinds of sequencer state (R81) -/

/-- The flag a poll state samples and the value it wants (R81, R123); `none` for `IDLE` and the emit states. -/
def pollOf (p : Params) : Step → Option (Flag × Bool)
  | .p1WaitIdle | .snTailWaitIdle => some (.busy, false)
  | .p2WaitSb | .r1WaitSb => some (.startSent, true)
  | .p3WaitAddr | .r2WaitAddr => some (.addrMatched, true)
  | .p3WaitTra => some (.txDir, true)
  | .p4WaitTxe => some (.txEmpty, true)
  | .p5WaitBtf | .w6WaitBtf | .s2WaitBtf | .snStreamWait | .snTailWaitBtf => some (.btf, true)
  | .w7WaitEnd => some (finalFlag p.finalWait, false)
  | .s1WaitRxne | .snTailWaitRxne => some (.rxNotEmpty, true)
  | .idle | .p2Start | .p3AddrW | .p4Reg | .w5Value | .w6Stop | .r0AckSet | .r0PosClr | .r1Restart | .r2AddrR
  | .s1AckClr | .s1AddrClr | .s1Stop | .s1Read | .s2PosSet | .s2AddrClr | .s2AckClr | .s2Stop | .s2Read0
  | .s2Read1 | .snAddrClr | .snStreamRead | .snTailAckClr | .snTailReadA | .snTailStop | .snTailReadB
  | .snTailReadC => none

/-- The next sequencer states a state may write, other than itself and, in a poll state, `IDLE` by abort (R108). -/
def successors : Step → List Step
  | .idle => [.p1WaitIdle]
  | .p1WaitIdle => [.p2Start]
  | .p2Start => [.p2WaitSb]
  | .p2WaitSb => [.p3AddrW]
  | .p3AddrW => [.p3WaitAddr]
  | .p3WaitAddr => [.p3WaitTra]
  | .p3WaitTra => [.p4WaitTxe]
  | .p4WaitTxe => [.p4Reg]
  | .p4Reg => [.p5WaitBtf]
  | .p5WaitBtf => [.w5Value, .r0AckSet, .r1Restart]
  | .w5Value => [.w6WaitBtf]
  | .w6WaitBtf => [.w6Stop]
  | .w6Stop => [.w7WaitEnd]
  | .w7WaitEnd => [.idle]
  | .r0AckSet => [.r0PosClr]
  | .r0PosClr => [.r1Restart]
  | .r1Restart => [.r1WaitSb]
  | .r1WaitSb => [.r2AddrR]
  | .r2AddrR => [.r2WaitAddr]
  | .r2WaitAddr => [.s1AckClr, .s2PosSet, .snAddrClr]
  | .s1AckClr => [.s1AddrClr]
  | .s1AddrClr => [.s1Stop]
  | .s1Stop => [.s1WaitRxne]
  | .s1WaitRxne => [.s1Read]
  | .s1Read => [.idle]
  | .s2PosSet => [.s2AddrClr]
  | .s2AddrClr => [.s2AckClr]
  | .s2AckClr => [.s2WaitBtf]
  | .s2WaitBtf => [.s2Stop]
  | .s2Stop => [.s2Read0]
  | .s2Read0 => [.s2Read1]
  | .s2Read1 => [.idle]
  | .snAddrClr => [.snStreamWait, .snTailWaitBtf]
  | .snStreamWait => [.snStreamRead]
  | .snStreamRead => [.snStreamWait, .snTailWaitBtf]
  | .snTailWaitBtf => [.snTailAckClr]
  | .snTailAckClr => [.snTailReadA]
  | .snTailReadA => [.snTailStop]
  | .snTailStop => [.snTailReadB]
  | .snTailReadB => [.snTailWaitIdle]
  | .snTailWaitIdle => [.snTailWaitRxne]
  | .snTailWaitRxne => [.snTailReadC]
  | .snTailReadC => [.idle]

/-- The `CMD` rows: what the host issues (R76 to R78). -/
def isCommand : Instr → Bool
  | .wr _ _ _ | .wrReserved _ _ _ _ | .rd0 _ _ | .rd1 _ _ | .rd2 _ _ | .rdn _ _ _ => true
  | _ => false

/-- `i` is a poll state whose sample, unwanted, spends the budget (R202): what aborts a command. -/
def State.Spends (s : State) (i : Instr) : Prop :=
  ∃ (n : Step) (f : Flag) (want : Bool), i = n.instr ∧ pollOf s.params n = some (f, want) ∧ s.flags.get f = (!want) ∧
    s.params.pollBudget = some (s.polls + 1)

/-- The engine's own record (R10) with the trace it has left (R41). -/
structure EngineView where
  step : Step
  cmd : Command
  idx : Nat
  polls : Nat
  ackPolicy : Bool
  status : Status
  done : Bool
  buf : List BufCell
  fault : Bool
  trace : List Event
  deriving DecidableEq, Repr

/-- What of the state is the engine's. -/
def State.engineView (s : State) : EngineView :=
  ⟨s.step, s.cmd, s.idx, s.polls, s.ackPolicy, s.status, s.done, s.buf, s.fault, s.trace⟩

/-- The slave registers a burst of `n` bytes from register `reg` reads (R65). -/
def burst (m : Memory) (slave : SlaveAddr) (reg : Byte) (n : Nat) : List Byte :=
  (List.range n).map fun i => m.read (slaveCell slave (reg + BitVec.ofNat 8 i))

/-- The data part of the read frame: every byte acknowledged but the last (R75). -/
def dataSymbols : List Byte → List Symbol
  | [] => []
  | [b] => [.byte b false]
  | b :: c :: l => .byte b true :: dataSymbols (c :: l)

/-- The wire frame of a write (R74). -/
def writeFrame (slave : SlaveAddr) (reg value : Byte) : List Symbol :=
  [.start, .byte (slaWrite slave) true, .byte reg true, .byte value true, .stop]

/-- The wire frame of a read (R75). -/
def readFrame (slave : SlaveAddr) (reg : Byte) (bytes : List Byte) : List Symbol :=
  [.start, .byte (slaWrite slave) true, .byte reg true, .restart, .byte (slaRead slave) true] ++
    dataSymbols bytes ++ [.stop]

/-- The engine is idle, and so are the bus and the simulated controller, in which `slave` is present and no STOP is
pending (R58, R60). -/
def State.QuietWith (s : State) (slave : SlaveAddr) : Prop :=
  s.step = .idle ∧ s.flags.busy = false ∧ s.stop = false ∧ s.bus.phase = .idle ∧ slave ∈ s.bus.present

/-! ### Invariants -/

/-- The budget is a legal parameter and the count of failed samples stays below it (R202, R107). -/
def State.BudgetOk (s : State) : Prop :=
  match s.params.pollBudget with
  | none => True
  | some n => s.polls < n

/-- `done` and `status` agree (R16, R18): `done` is true exactly when there is a result, and while a command runs
there is none. -/
def State.ResultOk (s : State) : Prop :=
  (s.done = true ↔ s.status ≠ .noResult) ∧ (s.step ≠ .idle → s.done = false)

/-- What a sequencer state says about the command it belongs to (R119, R148): the direction, and for the three paths
the length. -/
def stepFits (p : Params) (c : Command) : Step → Prop
  | .idle => True
  | .p1WaitIdle | .p2Start | .p2WaitSb | .p3AddrW | .p3WaitAddr | .p3WaitTra | .p4WaitTxe | .p4Reg
  | .p5WaitBtf => c.dir = .read → 1 ≤ c.length
  | .w5Value | .w6WaitBtf | .w6Stop | .w7WaitEnd => c.dir = .write
  | .r0AckSet | .r0PosClr => c.dir = .read ∧ 1 ≤ c.length ∧ p.readInit = true
  | .r1Restart | .r1WaitSb | .r2AddrR | .r2WaitAddr => c.dir = .read ∧ 1 ≤ c.length
  | .s1AckClr | .s1AddrClr | .s1Stop | .s1WaitRxne | .s1Read => c.dir = .read ∧ c.length = 1
  | .s2PosSet | .s2AddrClr | .s2AckClr | .s2WaitBtf | .s2Stop | .s2Read0 | .s2Read1 =>
    c.dir = .read ∧ c.length = 2
  | .snAddrClr | .snStreamWait | .snStreamRead | .snTailWaitBtf | .snTailAckClr | .snTailReadA | .snTailStop
  | .snTailReadB | .snTailWaitIdle | .snTailWaitRxne | .snTailReadC => c.dir = .read ∧ 3 ≤ c.length

/-- The command fits the state (R119, R148). -/
def State.PathOk (s : State) : Prop := stepFits s.params s.cmd s.step

/-- `idx` in the RDN path (R13, R178, R179): below `length - 3` while streaming, equal to it in the tail. -/
def State.IndexOk (s : State) : Prop :=
  match s.step with
  | .snStreamWait | .snStreamRead => s.idx < s.cmd.length - 3
  | .snTailWaitBtf | .snTailAckClr | .snTailReadA | .snTailStop | .snTailReadB | .snTailWaitIdle
  | .snTailWaitRxne | .snTailReadC => s.idx = s.cmd.length - 3
  | _ => True

/-- How many cells of `buf` the running read has written when it is about to perform a state (R17). -/
def filled (idx length : Nat) : Step → Nat
  | .s2Read1 => 1
  | .snStreamWait | .snStreamRead => idx
  | .snTailWaitBtf | .snTailAckClr | .snTailReadA => length - 3
  | .snTailStop | .snTailReadB => length - 2
  | .snTailWaitIdle | .snTailWaitRxne | .snTailReadC => length - 1
  | _ => 0

/-- Cell `c` holds a byte. -/
def BufCell.isByte : BufCell → Bool
  | .byte _ => true
  | .empty | .unspecified => false

/-- The first `k` cells hold a byte and the others are empty. -/
def filledTo (buf : List BufCell) (k : Nat) : Prop :=
  (∀ c ∈ buf.take k, c.isByte = true) ∧ ∀ c ∈ buf.drop k, c = .empty

/-- `buf` has one cell for each byte asked for; a running read has filled them in increasing order, and a read that
ended with `OK` has filled them all (R17). -/
def State.BufferOk (s : State) : Prop :=
  s.buf.length = s.cmd.length ∧
  (s.cmd.dir = .read →
    (s.step ≠ .idle → filledTo s.buf (filled s.idx s.cmd.length s.step)) ∧
    (s.step = .idle → s.status = .ok → ∀ c ∈ s.buf, c.isByte = true))

/-- `ack_policy` is the value driven to `ack_enable`: from `R0_ACK_SET` on when the parameter has it, and from the
path's `BitClear` on in any case (R15). -/
def State.PolicyOk (s : State) : Prop :=
  match s.step with
  | .r0PosClr => s.ackPolicy = true ∧ s.ackEnable = true
  | .r1Restart | .r1WaitSb | .r2AddrR | .r2WaitAddr | .s1AckClr | .s2PosSet | .s2AddrClr | .s2AckClr | .snAddrClr
  | .snStreamWait | .snStreamRead | .snTailWaitBtf | .snTailAckClr =>
    s.params.readInit = true → s.ackPolicy = true ∧ s.ackEnable = true
  | .s1AddrClr | .s1Stop | .s1WaitRxne | .s1Read | .s2WaitBtf | .s2Stop | .s2Read0 | .s2Read1 | .snTailReadA
  | .snTailStop | .snTailReadB | .snTailWaitIdle | .snTailWaitRxne | .snTailReadC =>
    s.ackPolicy = false ∧ s.ackEnable = false
  | _ => True

/-- `pos` in the read phase: clear from `R0_POS_CLR` on when the parameter has it, and set from `S2_POS_SET` on in
the path RD2 (R30, R143, R168). -/
def State.PosOk (s : State) : Prop :=
  match s.step with
  | .s2AddrClr | .s2AckClr | .s2WaitBtf | .s2Stop | .s2Read0 | .s2Read1 => s.pos = true
  | .r1Restart | .r1WaitSb | .r2AddrR | .r2WaitAddr | .s1AckClr | .s1AddrClr | .s1Stop | .s1WaitRxne | .s1Read
  | .s2PosSet | .snAddrClr | .snStreamWait | .snStreamRead | .snTailWaitBtf | .snTailAckClr | .snTailReadA
  | .snTailStop | .snTailReadB | .snTailWaitIdle | .snTailWaitRxne | .snTailReadC =>
    s.params.readInit = true → s.pos = false
  | _ => True

/-- The invariant of the engine's command registers. -/
structure State.CommandOk (s : State) : Prop where
  /-- `done` and `status` agree. -/
  result : s.ResultOk
  /-- The command fits the state. -/
  path : s.PathOk
  /-- The streaming index fits the length. -/
  index : s.IndexOk
  /-- The buffer fits the command and the state. -/
  buffer : s.BufferOk

/-! ### Scripts -/

/-- One symbol of a script: a wait that ends with the wanted sample, or one operation. -/
inductive Atom where
  | poll (f : Flag) (want : Bool)
  | op (e : Event)
  deriving DecidableEq, Repr

/-- `tr` spells the script: each wait is any number of failed samples and then the wanted one, each operation one
event (R124). -/
def Spells : List Atom → List Event → Prop
  | [], tr => tr = []
  | .op e :: rest, tr => ∃ tr', tr = e :: tr' ∧ Spells rest tr'
  | .poll f want :: rest, tr =>
    ∃ k tr', tr = List.replicate k (.flagRead f !want) ++ .flagRead f want :: tr' ∧ Spells rest tr'

/-- Cell `i` as the event that filled it. -/
def rxAt (buf : List BufCell) (i : Nat) : List Atom :=
  match buf[i]? with
  | some (.byte b) => [.op (.dataRead b)]
  | _ => []

/-- The nine states both commands share (R124, R149): address the slave and select the register. -/
def selectScript (c : Command) : List Atom :=
  [.poll .busy false, .op (.bitSet .start), .poll .startSent true, .op (.dataWrite (slaWrite c.slave)),
    .poll .addrMatched true, .poll .txDir true, .poll .txEmpty true, .op (.dataWrite c.reg), .poll .btf true]

/-- The write's own tail (R124). -/
def tailScript (p : Params) (c : Command) : List Atom :=
  [.op (.dataWrite c.value), .poll .btf true, .op (.bitSet .stop), .poll (finalFlag p.finalWait) false]

/-- The two control writes of `READ_INIT` (R149). -/
def initScript (p : Params) : List Atom :=
  if p.readInit then [.op (.bitSet .ackEnable), .op (.bitClear .pos)] else []

/-- The repeated START and the read-direction address (R149). -/
def restartScript (c : Command) : List Atom :=
  [.op (.bitSet .start), .poll .startSent true, .op (.dataWrite (slaRead c.slave)), .poll .addrMatched true]

/-- A read from issue to dispatch (R149). -/
def headScript (p : Params) (c : Command) : List Atom := selectScript c ++ initScript p ++ restartScript c

/-- RD1 after dispatch, but for the data read (R166). -/
def oneScript : List Atom :=
  [.op (.bitClear .ackEnable), .op .addrClear, .op (.bitSet .stop), .poll .rxNotEmpty true]

/-- RD2 after dispatch, but for the data reads (R175). -/
def twoScript : List Atom :=
  [.op (.bitSet .pos), .op .addrClear, .op (.bitClear .ackEnable), .poll .btf true, .op (.bitSet .stop)]

/-- The first `n` streamed bytes of RDN (R188). -/
def streamScript (buf : List BufCell) : Nat → List Atom
  | 0 => []
  | n + 1 => streamScript buf n ++ .poll .btf true :: rxAt buf n

/-- The tail of RDN from the `btf` wait to the read of byte `length - 2` (R188). -/
def drainScript (buf : List BufCell) (length : Nat) : List Atom :=
  [.poll .btf true, .op (.bitClear .ackEnable)] ++ rxAt buf (length - 3) ++ [.op (.bitSet .stop)] ++
    rxAt buf (length - 2)

/-- The whole command (R124, R149 with R166, R175 or R188), the answers of the data reads being the bytes in `buf`. -/
def wholeScript (p : Params) (c : Command) (buf : List BufCell) : List Atom :=
  match c.dir with
  | .write => selectScript c ++ tailScript p c
  | .read =>
    headScript p c ++
      if c.length = 1 then oneScript ++ rxAt buf 0
      else if c.length = 2 then twoScript ++ rxAt buf 0 ++ rxAt buf 1
      else .op .addrClear :: streamScript buf (c.length - 3) ++ drainScript buf c.length ++
        [.poll .busy false, .poll .rxNotEmpty true] ++ rxAt buf (c.length - 1)

/-- The part of the command's script that lies before a sequencer state. -/
def scriptBefore (p : Params) (c : Command) (buf : List BufCell) (idx : Nat) : Step → List Atom
  | .idle => wholeScript p c buf
  | .p1WaitIdle => []
  | .p2Start => (selectScript c).take 1
  | .p2WaitSb => (selectScript c).take 2
  | .p3AddrW => (selectScript c).take 3
  | .p3WaitAddr => (selectScript c).take 4
  | .p3WaitTra => (selectScript c).take 5
  | .p4WaitTxe => (selectScript c).take 6
  | .p4Reg => (selectScript c).take 7
  | .p5WaitBtf => (selectScript c).take 8
  | .w5Value => selectScript c
  | .w6WaitBtf => selectScript c ++ (tailScript p c).take 1
  | .w6Stop => selectScript c ++ (tailScript p c).take 2
  | .w7WaitEnd => selectScript c ++ (tailScript p c).take 3
  | .r0AckSet => selectScript c
  | .r0PosClr => selectScript c ++ [.op (.bitSet .ackEnable)]
  | .r1Restart => selectScript c ++ initScript p
  | .r1WaitSb => selectScript c ++ initScript p ++ (restartScript c).take 1
  | .r2AddrR => selectScript c ++ initScript p ++ (restartScript c).take 2
  | .r2WaitAddr => selectScript c ++ initScript p ++ (restartScript c).take 3
  | .s1AckClr => headScript p c
  | .s1AddrClr => headScript p c ++ oneScript.take 1
  | .s1Stop => headScript p c ++ oneScript.take 2
  | .s1WaitRxne => headScript p c ++ oneScript.take 3
  | .s1Read => headScript p c ++ oneScript
  | .s2PosSet => headScript p c
  | .s2AddrClr => headScript p c ++ twoScript.take 1
  | .s2AckClr => headScript p c ++ twoScript.take 2
  | .s2WaitBtf => headScript p c ++ twoScript.take 3
  | .s2Stop => headScript p c ++ twoScript.take 4
  | .s2Read0 => headScript p c ++ twoScript
  | .s2Read1 => headScript p c ++ twoScript ++ rxAt buf 0
  | .snAddrClr => headScript p c
  | .snStreamWait => headScript p c ++ .op .addrClear :: streamScript buf idx
  | .snStreamRead => headScript p c ++ .op .addrClear :: streamScript buf idx ++ [.poll .btf true]
  | .snTailWaitBtf => headScript p c ++ .op .addrClear :: streamScript buf (c.length - 3)
  | .snTailAckClr => headScript p c ++ .op .addrClear :: streamScript buf (c.length - 3) ++ [.poll .btf true]
  | .snTailReadA =>
    headScript p c ++ .op .addrClear :: streamScript buf (c.length - 3) ++
      [.poll .btf true, .op (.bitClear .ackEnable)]
  | .snTailStop =>
    headScript p c ++ .op .addrClear :: streamScript buf (c.length - 3) ++
      [.poll .btf true, .op (.bitClear .ackEnable)] ++ rxAt buf (c.length - 3)
  | .snTailReadB =>
    headScript p c ++ .op .addrClear :: streamScript buf (c.length - 3) ++
      [.poll .btf true, .op (.bitClear .ackEnable)] ++ rxAt buf (c.length - 3) ++ [.op (.bitSet .stop)]
  | .snTailWaitIdle =>
    headScript p c ++ .op .addrClear :: streamScript buf (c.length - 3) ++ drainScript buf c.length
  | .snTailWaitRxne =>
    headScript p c ++ .op .addrClear :: streamScript buf (c.length - 3) ++ drainScript buf c.length ++
      [.poll .busy false]
  | .snTailReadC =>
    headScript p c ++ .op .addrClear :: streamScript buf (c.length - 3) ++ drainScript buf c.length ++
      [.poll .busy false, .poll .rxNotEmpty true]

/-- The failed samples of the wait in progress (R91). -/
def pending (p : Params) (polls : Nat) (st : Step) : List Event :=
  match pollOf p st with
  | some (f, want) => List.replicate polls (.flagRead f !want)
  | none => []

/-- The command running in `s` was issued when the trace was `before`, and what the engine has done since is its
script up to the present state, followed by the failed samples of the present wait. -/
def State.OnScript (before : List Event) (s : State) : Prop :=
  ∃ tr, s.trace = before ++ tr ++ pending s.params s.polls s.step ∧
    Spells (scriptBefore s.params s.cmd s.buf s.idx s.step) tr

end Sys2Proof.Machine
end

