-- ==== Sys2Proof/Certificates/Slice0/Obligations.lean ====
section
/-! DEFINITION. The statements for the provers. Each docstring names the rule of spec/ it formalises; a statement over
a state holds for every state, those no run reaches included, unless a premise says otherwise. -/

open Sys2Proof Sys2Proof.Machine

/-! ### Encodings -/

/-- Decoding the word of any well-formed instruction gives it back, every operand at every value (R71 to R73, R76 to
R81). -/
def Obligations.DecodeOfEncode : Prop := ∀ i : Instr, i.wf = true → decode (encode i) = .ok i

/-- A word that decodes is the word of the instruction it decodes to, and that instruction is well-formed: no two
words of a format share a meaning. -/
def Obligations.EncodeOfDecode : Prop := ∀ (w : Encoded) (i : Instr), decode w = .ok i → encode i = w ∧ i.wf = true

/-- The decode order of R86 with the fields of R71, said with the arithmetic of the word: every 32-bit word falls in
exactly one row. -/
def Obligations.CommandDecodeOrder : Prop :=
  ∀ w : CmdWord,
    let n := w.toNat
    let slave : SlaveAddr := BitVec.ofNat 7 (n / 2)
    let reg : Byte := BitVec.ofNat 8 (n / 256)
    (n % 2 = 0 → n / 16777216 ≠ 0 → decodeCmd w =
      .wrReserved slave reg (BitVec.ofNat 8 (n / 65536)) (BitVec.ofNat 8 (n / 16777216))) ∧
    (n % 2 = 0 → n / 16777216 = 0 → decodeCmd w = .wr slave reg (BitVec.ofNat 8 (n / 65536))) ∧
    (n % 2 = 1 → n / 65536 = 0 → decodeCmd w = .rd0 slave reg) ∧
    (n % 2 = 1 → n / 65536 = 1 → decodeCmd w = .rd1 slave reg) ∧
    (n % 2 = 1 → n / 65536 = 2 → decodeCmd w = .rd2 slave reg) ∧
    (n % 2 = 1 → 3 ≤ n / 65536 → decodeCmd w = .rdn slave reg (BitVec.ofNat 16 (n / 65536)))

/-- The address byte of R73: bits 7:1 are the slave address, bit 0 is 0 for a write and 1 for a read. -/
def Obligations.AddressByteAssembly : Prop :=
  ∀ a : SlaveAddr,
    (slaWrite a).toNat = 2 * a.toNat ∧ (slaRead a).toNat = 2 * a.toNat + 1 ∧
    decodeAddrByte (slaWrite a) = .slaW a ∧ decodeAddrByte (slaRead a) = .slaR a

/-- The state codes of R81: the 43 names in the table's order have the codes 0 to 42, each code decodes to its name, and
the codes 43 to 63 to none. -/
def Obligations.StateCodesDecode : Prop :=
  let names : List Step :=
    [Step.idle, .p1WaitIdle, .p2Start, .p2WaitSb, .p3AddrW, .p3WaitAddr, .p3WaitTra, .p4WaitTxe, .p4Reg,
      .p5WaitBtf, .w5Value, .w6WaitBtf, .w6Stop, .w7WaitEnd, .r0AckSet, .r0PosClr, .r1Restart, .r1WaitSb,
      .r2AddrR, .r2WaitAddr, .s1AckClr, .s1AddrClr, .s1Stop, .s1WaitRxne, .s1Read, .s2PosSet, .s2AddrClr,
      .s2AckClr, .s2WaitBtf, .s2Stop, .s2Read0, .s2Read1, .snAddrClr, .snStreamWait, .snStreamRead,
      .snTailWaitBtf, .snTailAckClr, .snTailReadA, .snTailStop, .snTailReadB, .snTailWaitIdle,
      .snTailWaitRxne, .snTailReadC]
  names.map (fun n => n.code.toNat) = List.range 43 ∧
  (∀ n : Step, n ∈ names ∧ decode (.step n.code) = .ok n.instr) ∧
  ∀ c : StepCode, 43 ≤ c.toNat → decode (.step c) = .error (.unusedStepCode c)

/-- Words written out from the encodings of R71 and R84 (95_test_vectors.md V7, V8): sanity. -/
def Obligations.SampleWordsDecode : Prop :=
  decodeCmd 0x00192A3A#32 = .wr 0x1D 0x2A 0x19 ∧
  decodeCmd 0x01192A3A#32 = .wrReserved 0x1D 0x2A 0x19 0x01 ∧
  decodeCmd 0x0000013B#32 = .rd0 0x1D 0x01 ∧
  decodeCmd 0x00012A3B#32 = .rd1 0x1D 0x2A ∧
  decodeCmd 0x0002013B#32 = .rd2 0x1D 0x01 ∧
  decodeCmd 0x0006013B#32 = .rdn 0x1D 0x01 6 ∧
  decodeAddrByte 0b00111010#8 = .slaW 0b0011101 ∧
  decodeAddrByte 0b00111011#8 = .slaR 0b0011101 ∧
  decode (.step 0b000001#6) = .ok .p1WaitIdle ∧ decode (.step 0b101010#6) = .ok .snTailReadC

/-! ### The host's command words -/

/-- A legal write word at `IDLE` (R95, R110): `cmd` is latched, the buffer is not touched, nothing else changes.
That `cmd.length` keeps its value is the model's reading of R72 (log 8), that `buf` does of R110 (log 9). -/
def Obligations.WriteIssueLatches : Prop :=
  ∀ (slave : SlaveAddr) (reg value : Byte) (s : State), s.step = .idle →
    exec (.wr slave reg value) s = .next { s with
      cmd := { dir := .write, slave := slave, reg := reg, value := value, length := s.cmd.length }
      done := false, status := .noResult, polls := 0, step := .p1WaitIdle }

/-- A legal read word at `IDLE` (R95, R140): `cmd` is latched and `buf` becomes `length` empty cells. That
`cmd.value` keeps its value is the model's reading of R72 (log 8). -/
def Obligations.ReadIssueLatches : Prop :=
  ∀ (slave : SlaveAddr) (reg : Byte) (length : LengthField) (i : Instr) (n : Nat) (s : State),
    (i, n) ∈ [(.rd1 slave reg, 1), (.rd2 slave reg, 2), (Instr.rdn slave reg length, length.toNat)] →
    s.step = .idle →
    exec i s = .next { s with
      cmd := { dir := .read, slave := slave, reg := reg, value := s.cmd.value, length := n }
      buf := List.replicate n .empty
      done := false, status := .noResult, polls := 0, step := .p1WaitIdle }

/-- An illegal word at `IDLE` is rejected (R207, R77, R78): `status` and `done` are written and nothing else, with or
without a poll budget. -/
def Obligations.IllegalWordRejected : Prop :=
  ∀ (slave : SlaveAddr) (reg value reserved : Byte) (i : Instr) (s : State),
    i ∈ [Instr.wrReserved slave reg value reserved, .rd0 slave reg] → s.step = .idle →
    exec i s = .next { s with status := .rejected, done := true }

/-- A word issued while a command runs sets the mark `fault` and is otherwise ignored (R215). -/
def Obligations.IssueWhileRunningMarks : Prop :=
  ∀ (w : CmdWord) (s : State), s.step ≠ .idle → exec (decodeCmd w) s = .next { s with fault := true }

/-! ### The emit states -/

/-- The two START states (R112, R144). -/
def Obligations.StartStatesEmit : Prop :=
  ∀ (i : Instr) (next : Step) (s : State), (i, next) ∈ [(Instr.p2Start, .p2WaitSb), (.r1Restart, .r1WaitSb)] →
    exec i s = .next { s with
      start := true, trace := s.trace ++ [.bitSet .start], polls := 0, step := next }

/-- The four STOP states (R122, R163, R172, R183). -/
def Obligations.StopStatesEmit : Prop :=
  ∀ (i : Instr) (next : Step) (s : State),
    (i, next) ∈ [(Instr.w6Stop, .w7WaitEnd), (.s1Stop, .s1WaitRxne), (.s2Stop, .s2Read0),
      (.snTailStop, .snTailReadB)] →
    exec i s = .next { s with
      stop := true, trace := s.trace ++ [.bitSet .stop], polls := 0, step := next }

/-- The states that write the two control bits: acknowledge on (R142) and off (R161, R170, R181), with `ack_policy` the
value driven, and the position bit off (R143) and on (R168). -/
def Obligations.ControlBitStatesEmit : Prop :=
  ∀ s : State,
    exec .r0AckSet s = .next { s with
      ackEnable := true, ackPolicy := true, trace := s.trace ++ [.bitSet .ackEnable], polls := 0
      step := .r0PosClr } ∧
    (∀ (i : Instr) (next : Step),
      (i, next) ∈ [(Instr.s1AckClr, .s1AddrClr), (.s2AckClr, .s2WaitBtf), (.snTailAckClr, .snTailReadA)] →
      exec i s = .next { s with
        ackEnable := false, ackPolicy := false, trace := s.trace ++ [.bitClear .ackEnable], polls := 0
        step := next }) ∧
    exec .r0PosClr s = .next { s with
      pos := false, trace := s.trace ++ [.bitClear .pos], polls := 0, step := .r1Restart } ∧
    exec .s2PosSet s = .next { s with
      pos := true, trace := s.trace ++ [.bitSet .pos], polls := 0, step := .s2AddrClr }

/-- The two address-byte states (R114, R146): the byte is twice the slave address, plus one for a read. That the data
write leaves the flags as they were is the model's reading (DEDUCED, log 15). -/
def Obligations.AddressStatesEmit : Prop :=
  ∀ s : State,
    let w : Byte := BitVec.ofNat 8 (2 * s.cmd.slave.toNat)
    let r : Byte := BitVec.ofNat 8 (2 * s.cmd.slave.toNat + 1)
    exec .p3AddrW s = .next { s with
      data := w, trace := s.trace ++ [.dataWrite w], polls := 0, step := .p3WaitAddr } ∧
    exec .r2AddrR s = .next { s with
      data := r, trace := s.trace ++ [.dataWrite r], polls := 0, step := .r2WaitAddr }

/-- The register-index and the value state (R118, R120). That the data write leaves the flags as they were is the
model's reading (DEDUCED, log 15). -/
def Obligations.ByteStatesEmit : Prop :=
  ∀ s : State,
    exec .p4Reg s = .next { s with
      data := s.cmd.reg, trace := s.trace ++ [.dataWrite s.cmd.reg], polls := 0, step := .p5WaitBtf } ∧
    exec .w5Value s = .next { s with
      data := s.cmd.value, trace := s.trace ++ [.dataWrite s.cmd.value], polls := 0, step := .w6WaitBtf }

/-- The states that clear the address-matched condition in RD1 and RD2 (R162, R169). That every other flag is as it
was is the model's reading (DEDUCED, log 15). -/
def Obligations.AddrClearStatesEmit : Prop :=
  ∀ (i : Instr) (next : Step) (s : State), (i, next) ∈ [(Instr.s1AddrClr, .s1Stop), (.s2AddrClr, .s2AckClr)] →
    exec i s = .next { s with
      flags := { s.flags with addrMatched := false }
      trace := s.trace ++ [.addrClear], polls := 0, step := next }

/-- The state that opens RDN (R177): `idx` becomes 0 and the first branch depends on `cmd.length - 3 > 0`. That the
flags other than `addr_matched` are as they were is the model's reading (DEDUCED, log 15). -/
def Obligations.StreamOpens : Prop :=
  ∀ s : State,
    exec .snAddrClr s = .next { s with
      flags := { s.flags with addrMatched := false }
      trace := s.trace ++ [.addrClear], polls := 0, idx := 0
      step := if 3 < s.cmd.length then .snStreamWait else .snTailWaitBtf }

/-- The data reads of RD1 and RD2 (R165, R173, R174): the byte is the one presented in `data`, it goes to its cell, and
the last read of each path completes the command with `OK`. That the answer is the byte `data` holds, and that `data`
and the flags are as they were, is the model's reading (DEDUCED, log 15). -/
def Obligations.ShortReadsTakeByte : Prop :=
  ∀ s : State,
    exec .s1Read s = .next { s with
      buf := s.buf.set 0 (.byte s.data), trace := s.trace ++ [.dataRead s.data], polls := 0
      status := .ok, done := true, step := .idle } ∧
    exec .s2Read0 s = .next { s with
      buf := s.buf.set 0 (.byte s.data), trace := s.trace ++ [.dataRead s.data], polls := 0, step := .s2Read1 } ∧
    exec .s2Read1 s = .next { s with
      buf := s.buf.set 1 (.byte s.data), trace := s.trace ++ [.dataRead s.data], polls := 0
      status := .ok, done := true, step := .idle }

/-- The streamed read (R179): the byte goes to `buf[idx]`, and the new `idx` decides the branch. That the byte is the
one `data` holds, and that `data` and the flags are as they were, is the model's reading (DEDUCED, log 15). -/
def Obligations.StreamedReadTakesByte : Prop :=
  ∀ s : State,
    exec .snStreamRead s = .next { s with
      buf := s.buf.set s.idx (.byte s.data), trace := s.trace ++ [.dataRead s.data], polls := 0
      idx := s.idx + 1
      step := if s.idx + 1 < s.cmd.length - 3 then .snStreamWait else .snTailWaitBtf }

/-- The three tail reads of RDN (R182, R184, R187), by `cmd.length`; the last completes the command. That the byte is
the one `data` holds, and that `data` and the flags are as they were, is the model's reading (DEDUCED, log 15). -/
def Obligations.TailReadsTakeByte : Prop :=
  ∀ s : State,
    exec .snTailReadA s = .next { s with
      buf := s.buf.set (s.cmd.length - 3) (.byte s.data), trace := s.trace ++ [.dataRead s.data], polls := 0
      step := .snTailStop } ∧
    exec .snTailReadB s = .next { s with
      buf := s.buf.set (s.cmd.length - 2) (.byte s.data), trace := s.trace ++ [.dataRead s.data], polls := 0
      step := .snTailWaitIdle } ∧
    exec .snTailReadC s = .next { s with
      buf := s.buf.set (s.cmd.length - 1) (.byte s.data), trace := s.trace ++ [.dataRead s.data], polls := 0
      status := .ok, done := true, step := .idle }

/-- The two address-byte primitives (R98, R99): one data write and no move of `step`; the states `P3_ADDR_W` and
`R2_ADDR_R` perform them with `cmd.slave` (that a primitive by itself leaves `step` and `polls` is log 12's, that a
data write leaves the flags as they were is DEDUCED, log 15). -/
def Obligations.AddressPrimitivesWrite : Prop :=
  ∀ (slave : SlaveAddr) (s : State),
    exec (.slaW slave) s = .next { s with
      data := slaWrite slave, trace := s.trace ++ [.dataWrite (slaWrite slave)] } ∧
    exec (.slaR slave) s = .next { s with
      data := slaRead slave, trace := s.trace ++ [.dataWrite (slaRead slave)] } ∧
    (∀ t, exec (.slaW s.cmd.slave) s = .next t → exec .p3AddrW s = .next { t with polls := 0, step := .p3WaitAddr }) ∧
    ∀ t, exec (.slaR s.cmd.slave) s = .next t → exec .r2AddrR s = .next { t with polls := 0, step := .r2WaitAddr }

/-- At `IDLE` the engine has no step of its own: its turn changes nothing (R90, log 14). -/
def Obligations.IdleChangesNothing : Prop := ∀ s : State, exec .idle s = .next s

/-! ### The poll states -/

/-- The poll states of the prefix and of the write tail with one successor (R111, R113, R115 to R117, R121): the wanted
sample advances; an unwanted one stays and counts, or, when it spends the budget, aborts with the class of the flag. -/
def Obligations.WritePollsWait : Prop :=
  ∀ (i : Instr) (f : Flag) (want : Bool) (next : Step) (code : Status) (s : State),
    (i, f, want, next, code) ∈
      [(Instr.p1WaitIdle, Flag.busy, false, Step.p2Start, Status.busBusyTimeout),
        (.p2WaitSb, .startSent, true, .p3AddrW, .transferTimeout),
        (.p3WaitAddr, .addrMatched, true, .p3WaitTra, .noAcknowledge),
        (.p3WaitTra, .txDir, true, .p4WaitTxe, .transferTimeout),
        (.p4WaitTxe, .txEmpty, true, .p4Reg, .transferTimeout),
        (.w6WaitBtf, .btf, true, .w6Stop, .transferTimeout)] →
    (s.flags.get f = want →
      exec i s = .next { s with trace := s.trace ++ [.flagRead f want], polls := 0, step := next }) ∧
    (s.flags.get f = (!want) → s.params.pollBudget ≠ some (s.polls + 1) →
      exec i s = .next { s with trace := s.trace ++ [.flagRead f !want], polls := s.polls + 1 }) ∧
    (s.flags.get f = (!want) → s.params.pollBudget = some (s.polls + 1) →
      exec i s = .next { s with
        trace := s.trace ++ [.flagRead f !want], polls := 0, status := code, done := true, step := .idle
        buf := List.replicate s.buf.length .unspecified })

/-- The poll states of the read phase and of the three paths with one successor (R145, R164, R171, R178, R180, R185,
R186). -/
def Obligations.ReadPollsWait : Prop :=
  ∀ (i : Instr) (f : Flag) (want : Bool) (next : Step) (code : Status) (s : State),
    (i, f, want, next, code) ∈
      [(Instr.r1WaitSb, Flag.startSent, true, Step.r2AddrR, Status.transferTimeout),
        (.s1WaitRxne, .rxNotEmpty, true, .s1Read, .transferTimeout),
        (.s2WaitBtf, .btf, true, .s2Stop, .transferTimeout),
        (.snStreamWait, .btf, true, .snStreamRead, .transferTimeout),
        (.snTailWaitBtf, .btf, true, .snTailAckClr, .transferTimeout),
        (.snTailWaitIdle, .busy, false, .snTailWaitRxne, .busBusyTimeout),
        (.snTailWaitRxne, .rxNotEmpty, true, .snTailReadC, .transferTimeout)] →
    (s.flags.get f = want →
      exec i s = .next { s with trace := s.trace ++ [.flagRead f want], polls := 0, step := next }) ∧
    (s.flags.get f = (!want) → s.params.pollBudget ≠ some (s.polls + 1) →
      exec i s = .next { s with trace := s.trace ++ [.flagRead f !want], polls := s.polls + 1 }) ∧
    (s.flags.get f = (!want) → s.params.pollBudget = some (s.polls + 1) →
      exec i s = .next { s with
        trace := s.trace ++ [.flagRead f !want], polls := 0, status := code, done := true, step := .idle
        buf := List.replicate s.buf.length .unspecified })

/-- `P5_WAIT_BTF` (R119): where the two commands part. -/
def Obligations.SelectWaitBranches : Prop :=
  ∀ s : State,
    (s.flags.btf = true →
      exec .p5WaitBtf s = .next { s with
        trace := s.trace ++ [.flagRead .btf true], polls := 0
        step := if s.cmd.dir = .write then .w5Value else if s.params.readInit = true then .r0AckSet
          else .r1Restart }) ∧
    (s.flags.btf = false → s.params.pollBudget ≠ some (s.polls + 1) →
      exec .p5WaitBtf s = .next { s with trace := s.trace ++ [.flagRead .btf false], polls := s.polls + 1 }) ∧
    (s.flags.btf = false → s.params.pollBudget = some (s.polls + 1) →
      exec .p5WaitBtf s = .next { s with
        trace := s.trace ++ [.flagRead .btf false], polls := 0, status := .transferTimeout, done := true
        step := .idle, buf := List.replicate s.buf.length .unspecified })

/-- `R2_WAIT_ADDR` and the dispatch on length (R147, R148). `cmd.length = 0` cannot occur there (R148), so the first
clause has `1 <= cmd.length`, which the invariant `PathOk` gives (CommandInvariantKept). -/
def Obligations.AddressWaitDispatches : Prop :=
  ∀ s : State,
    (s.flags.addrMatched = true → 1 ≤ s.cmd.length →
      exec .r2WaitAddr s = .next { s with
        trace := s.trace ++ [.flagRead .addrMatched true], polls := 0
        step := if s.cmd.length = 1 then .s1AckClr else if s.cmd.length = 2 then .s2PosSet else .snAddrClr }) ∧
    (s.flags.addrMatched = false → s.params.pollBudget ≠ some (s.polls + 1) →
      exec .r2WaitAddr s = .next { s with trace := s.trace ++ [.flagRead .addrMatched false], polls := s.polls + 1 }) ∧
    (s.flags.addrMatched = false → s.params.pollBudget = some (s.polls + 1) →
      exec .r2WaitAddr s = .next { s with
        trace := s.trace ++ [.flagRead .addrMatched false], polls := 0, status := .noAcknowledge, done := true
        step := .idle, buf := List.replicate s.buf.length .unspecified })

/-- `W7_WAIT_END` (R123): the flag is `start_sent`, or `busy` under `BusIdle`; when it is 0 the write completes. -/
def Obligations.FinalWaitCompletes : Prop :=
  ∀ (s : State) (f : Flag) (code : Status),
    (f, code) = (match s.params.finalWait with
      | .startSentClear => (Flag.startSent, Status.transferTimeout)
      | .busIdle => (Flag.busy, Status.busBusyTimeout)) →
    (s.flags.get f = false →
      exec .w7WaitEnd s = .next { s with
        trace := s.trace ++ [.flagRead f false], polls := 0, status := .ok, done := true, step := .idle }) ∧
    (s.flags.get f = true → s.params.pollBudget ≠ some (s.polls + 1) →
      exec .w7WaitEnd s = .next { s with trace := s.trace ++ [.flagRead f true], polls := s.polls + 1 }) ∧
    (s.flags.get f = true → s.params.pollBudget = some (s.polls + 1) →
      exec .w7WaitEnd s = .next { s with
        trace := s.trace ++ [.flagRead f true], polls := 0, status := code, done := true, step := .idle
        buf := List.replicate s.buf.length .unspecified })

/-! ### What holds of every instruction -/

/-- Every instruction answers a next state in every state: the engine never stops (R200, R248). -/
def Obligations.EveryInstructionRuns : Prop := ∀ (i : Instr) (s : State), ∃ t, exec i s = .next t

/-- The frame of every instruction: which instructions may change each register, each bit of the register interface, each
flag, `buf` and the trace (R13 to R19, R29 to R33, R41, R91, R93, R95, R207, R215); what lies behind the register
interface is EngineLeavesMemory's. An abort is tied to the poll state whose unwanted sample spends the budget (R204). That
the flags change in the `AddrClear` states only, and that a data read leaves `data`, is the model's reading (DEDUCED,
log 15); that an address-byte row leaves `step` and `polls` is log 12's, that `IDLE` changes nothing log 14's. -/
def Obligations.FrameOfEveryInstruction : Prop :=
  ∀ (i : Instr) (s t : State), exec i s = .next t →
    (i ∉ [Instr.r0AckSet, .s1AckClr, .s2AckClr, .snTailAckClr] →
      t.ackEnable = s.ackEnable ∧ t.ackPolicy = s.ackPolicy) ∧
    (i ∉ [Instr.r0PosClr, .s2PosSet] → t.pos = s.pos) ∧
    (i ∉ [Instr.p2Start, .r1Restart] → t.start = s.start) ∧
    (i ∉ [Instr.w6Stop, .s1Stop, .s2Stop, .snTailStop] → t.stop = s.stop) ∧
    (i ∉ [Instr.snAddrClr, .snStreamRead] → t.idx = s.idx) ∧
    (i ∉ [Instr.s1AddrClr, .s2AddrClr, .snAddrClr] → t.flags = s.flags) ∧
    (i ∉ [Instr.p3AddrW, .p4Reg, .w5Value, .r2AddrR] → (∀ a, i ≠ .slaW a ∧ i ≠ .slaR a) → t.data = s.data) ∧
    (isCommand i = false → t.cmd = s.cmd ∧ t.fault = s.fault) ∧
    (i ∉ [Instr.s1Read, .s2Read0, .s2Read1, .snStreamRead, .snTailReadA, .snTailReadB, .snTailReadC] →
      isCommand i = false → t.buf = s.buf ∨
        (s.Spends i ∧ t.step = .idle ∧ t.buf = List.replicate s.buf.length .unspecified)) ∧
    (i ∉ [Instr.w7WaitEnd, .s1Read, .s2Read1, .snTailReadC] → isCommand i = false →
      (t.status = s.status ∧ t.done = s.done) ∨ (s.Spends i ∧ t.step = .idle ∧ t.done = true)) ∧
    (isCommand i = true → t.trace = s.trace) ∧
    (i = .idle → t = s) ∧
    (∀ a, i = .slaW a ∨ i = .slaR a → t.step = s.step ∧ t.polls = s.polls) ∧
    (∀ a r v x, i = .wrReserved a r v x ∨ i = .rd0 a r →
      t.step = s.step ∧ t.polls = s.polls ∧ t.cmd = s.cmd ∧ t.buf = s.buf) ∧
    (isCommand i = true → s.step ≠ .idle →
      t.step = s.step ∧ t.polls = s.polls ∧ t.cmd = s.cmd ∧ t.buf = s.buf ∧ t.status = s.status ∧ t.done = s.done)

/-- No instruction of the engine touches what lies behind the register interface: every byte of the slave register
space, the hidden state of R34, the parameters and the script of turns are as they were (R40, R35). -/
def Obligations.EngineLeavesMemory : Prop :=
  ∀ (i : Instr) (s t : State), exec i s = .next t →
    (∀ a, Memory.read a t.bus.mem = Memory.read a s.bus.mem) ∧
    t.bus = s.bus ∧ t.params = s.params ∧ t.turns = s.turns ∧ t.tick = s.tick

/-- One engine step appends exactly one event, a poll state's being the read of its flag with the flag's present value;
the issue and a rejection append none (R41, R42, R90). -/
def Obligations.OneEventPerStep : Prop :=
  (∀ (n : Step) (s t : State), n ≠ .idle → exec n.instr s = .next t →
    ∃ e, t.trace = s.trace ++ [e] ∧
      match pollOf s.params n with
      | some (f, _) => e = .flagRead f (s.flags.get f)
      | none => ∀ f a, e ≠ .flagRead f a) ∧
  ∀ (w : CmdWord) (s t : State), exec (decodeCmd w) s = .next t → t.trace = s.trace

/-- A poll step never writes the register interface (R91). -/
def Obligations.PollWritesNothing : Prop :=
  ∀ (n : Step) (s t : State) (fw : Flag × Bool), pollOf s.params n = some fw → exec n.instr s = .next t →
    t.ackEnable = s.ackEnable ∧ t.pos = s.pos ∧ t.start = s.start ∧ t.stop = s.stop ∧ t.data = s.data ∧
    t.flags = s.flags ∧ t.cmd = s.cmd ∧ t.idx = s.idx ∧ t.ackPolicy = s.ackPolicy

/-- Where `step` may go on an engine turn (R108): from a state other than `IDLE` to a listed successor; a poll state may
stay, and may go to `IDLE` by abort when its unwanted sample spends the budget; at `IDLE` nothing changes (R90), for only
the issue leaves it. -/
def Obligations.ControlTransfers : Prop :=
  ∀ (s t : State), s.engineTurn = .next t →
    (s.step = .idle → t = s) ∧
    (s.step ≠ .idle → t.step ∈ successors s.step ∨
      ∃ f want, pollOf s.params s.step = some (f, want) ∧ s.flags.get f = (!want) ∧
        (t.step = s.step ∨ (t.step = .idle ∧ s.params.pollBudget = some (s.polls + 1))))

/-- How a command ends (R93, R200, R203): `done` and `status` change only where one of the four last states completes
with `OK`, or where a poll state spends the budget and aborts with the class of its flag. -/
def Obligations.CommandEndsOnlySo : Prop :=
  ∀ (n : Step) (s t : State), exec n.instr s = .next t →
    (t.status = s.status ∧ t.done = s.done) ∨
    (t.status = .ok ∧ t.done = true ∧ t.step = .idle ∧
      n ∈ [Step.w7WaitEnd, .s1Read, .s2Read1, .snTailReadC]) ∨
    (t.done = true ∧ t.step = .idle ∧ s.params.pollBudget = some (s.polls + 1) ∧
      ∃ f want, pollOf s.params n = some (f, want) ∧ s.flags.get f ≠ want ∧
        t.status = if f = .busy then .busBusyTimeout else if f = .addrMatched then .noAcknowledge
          else .transferTimeout)

/-- What the engine does depends on the answers alone (R94, R238): two states with the same engine record and
parameters, in which the flag the present state polls has the same value, and `data` too where the state reads it,
go on to the same engine record and trace, whatever every other flag, the control bits, the environment's hidden state
and the slaves hold. -/
def Obligations.AnswersAloneSteer : Prop :=
  ∀ s t s' : State, s.engineView = t.engineView → s.params = t.params →
    (∀ f want, pollOf s.params s.step = some (f, want) → s.flags.get f = t.flags.get f) →
    (readsData s.step = true → s.data = t.data) →
    s.engineTurn = .next s' → ∃ t', t.engineTurn = .next t' ∧ t'.engineView = s'.engineView

/-- The mark `fault` (R19): no turn but reset clears it, and it is set by an issue while a command runs and by nothing
else. -/
def Obligations.FaultMarkSticks : Prop :=
  ∀ s t : State, step s = .next t →
    (s.fault = true → s.turns.head? ≠ some .reset → t.fault = true) ∧
    (∀ w, s.step ≠ .idle → s.turns.head? = some (.issue w) → t.fault = true) ∧
    (s.fault = false → t.fault = true → s.step ≠ .idle ∧ ∃ w, s.turns.head? = some (.issue w))

/-! ### Invariants -/

/-- Reset meets every invariant (R36; the parts that rest on fields the spec leaves unspecified rest on logs 4 to 6). -/
def Obligations.ResetMeetsInvariants : Prop :=
  State.reset.BudgetOk ∧ State.reset.CommandOk ∧ State.reset.PolicyOk ∧ State.reset.PosOk ∧
    Memory.wf State.reset.bus.mem

/-- Every turn keeps the invariant of the command registers: `done` and `status` agree (R16, R18), the sequencer
state fits the command's direction and length (R119, R148), the streaming index fits the length (R13), and `buf` has
`cmd.length` cells that a read fills in increasing order and has filled when it ends with `OK` (R17). -/
def Obligations.CommandInvariantKept : Prop :=
  ∀ s t : State, s.CommandOk → step s = .next t → t.CommandOk

/-- Every turn keeps the count of failed samples below the budget (R202, R107). -/
def Obligations.PollCountBounded : Prop := ∀ s t : State, s.BudgetOk → step s = .next t → t.BudgetOk

/-- Every turn keeps what a running read has driven to the two control bits. With `READ_INIT`, from the read's opening
on, and in any case from the path's `BitClear(ack_enable)` on, `ack_policy` and `ack_enable` both hold the value last
driven (R15); `pos` is set from `S2_POS_SET` on in RD2 and, with `READ_INIT`, clear from `R0_POS_CLR` on everywhere else
(R30). Before the read's opening nothing is said. That the environment changes neither bit is log 32's. -/
def Obligations.ControlBitsFollowRead : Prop :=
  ∀ s t : State, s.PolicyOk → s.PosOk → step s = .next t → t.PolicyOk ∧ t.PosOk

/-- What a completed read leaves behind (R243, R166, R175, R188): `ack_enable` clear, `pos` set after RD2 and, with
`READ_INIT` true, clear after RD1 and RDN. The premises are the invariants of ControlBitsFollowRead. -/
def Obligations.ReadLeavesControlBits : Prop :=
  ∀ s : State, s.PolicyOk → s.PosOk → s.step ∈ [Step.s1Read, .s2Read1, .snTailReadC] →
    ∃ t, s.engineTurn = .next t ∧ t.step = .idle ∧ t.status = .ok ∧ t.done = true ∧
      t.ackEnable = false ∧ t.ackPolicy = false ∧ (s.step = .s2Read1 → t.pos = true) ∧
      (s.step ≠ .s2Read1 → s.params.readInit = true → t.pos = false)

/-- Every turn, the environment's among them, keeps the slave register space in its canonical form. -/
def Obligations.MemoryStaysCanonical : Prop :=
  ∀ s t : State, Memory.wf s.bus.mem → step s = .next t → Memory.wf t.bus.mem

/-! ### The trace of a command -/

/-- The issue of a legal word starts the script: nothing has been done (R94, R95). -/
def Obligations.IssueStartsScript : Prop :=
  ∀ (w : CmdWord) (s t : State), s.step = .idle → exec (decodeCmd w) s = .next t → t.step ≠ .idle →
    t.OnScript s.trace

/-- Every run of a command follows its script (R54, R124, R149, R166, R175, R188): while a command runs, whatever
the turn, the trace since its issue is the script of the command up to the present state, each wait any number of
failed samples and then the wanted one, followed by the failed samples of the present wait; when the command completes
with `OK` it is the whole script; and when it aborts, the trace is the old one and one failed sample more. -/
def Obligations.RunFollowsScript : Prop :=
  ∀ (before : List Event) (s t : State), s.CommandOk → s.step ≠ .idle → s.OnScript before →
    s.turns.head? ≠ some .reset → step s = .next t →
    (t.step ≠ .idle ∨ t.status = .ok → t.OnScript before) ∧
    (t.step = .idle → t.status ≠ .ok →
      ∃ f want, pollOf s.params s.step = some (f, want) ∧ t.trace = s.trace ++ [.flagRead f !want])

/-- The whole script of a command in numbers (R124, R189): its length with no failed sample, one STOP, one START in a
write and two in a read, one `AddrClear` and one NACK in a read and none in a write, and the data reads are the
buffer's bytes in order. -/
def Obligations.ScriptInNumbers : Prop :=
  ∀ (p : Params) (c : Command) (bytes : List Byte),
    let script := wholeScript p c (bytes.map .byte)
    (c.dir = .write →
      script.length = 13 ∧ script.count (.op (.bitSet .start)) = 1 ∧ script.count (.op (.bitSet .stop)) = 1 ∧
      script.count (.op .addrClear) = 0 ∧ script.count (.op (.bitClear .ackEnable)) = 0) ∧
    (c.dir = .read → 1 ≤ c.length → bytes.length = c.length →
      script.length + (if p.readInit then 0 else 2) =
        (if c.length = 1 then 20 else if c.length = 2 then 22 else 2 * c.length + 18) ∧
      script.count (.op (.bitSet .start)) = 2 ∧ script.count (.op (.bitSet .stop)) = 1 ∧
      script.count (.op .addrClear) = 1 ∧ script.count (.op (.bitClear .ackEnable)) = 1 ∧
      (script.filterMap fun a => match a with | .op (.dataRead b) => some b | _ => none) = bytes)

/-! ### Waits over many steps -/

/-- The baseline (R200): no engine step aborts, and a poll state whose flag never shows the wanted value repeats for
ever, appending one `FlagRead` each time. -/
def Obligations.BaselineHangs : Prop :=
  ∀ s : State, s.params.pollBudget = none →
    (∀ t, s.engineTurn = .next t → t.status = s.status ∨ t.status = .ok) ∧
    ∀ (f : Flag) (want : Bool) (k : Nat), pollOf s.params s.step = some (f, want) → s.flags.get f = (!want) →
      core.run k { s with turns := List.replicate k .engine } = .next { s with
        turns := [], polls := s.polls + k, trace := s.trace ++ List.replicate k (.flagRead f !want) }

/-- The hardened form (R202 to R204): from the start of a wait whose flag does not show the wanted value, `k < n`
samples stay and count, and the `n`-th aborts with the class of the flag, no operation being performed and every cell
of `buf` becoming unspecified. -/
def Obligations.BudgetSpentAborts : Prop :=
  ∀ (s : State) (n : Nat) (f : Flag) (want : Bool), s.params.pollBudget = some n → 1 ≤ n → s.polls = 0 →
    pollOf s.params s.step = some (f, want) → s.flags.get f = (!want) →
    (∀ k, k < n → core.run k { s with turns := List.replicate k .engine } = .next { s with
      turns := [], polls := k, trace := s.trace ++ List.replicate k (.flagRead f !want) }) ∧
    core.run n { s with turns := List.replicate n .engine } = .next { s with
      turns := [], polls := 0, trace := s.trace ++ List.replicate n (.flagRead f !want)
      status := if f = .busy then .busBusyTimeout else if f = .addrMatched then .noAcknowledge else .transferTimeout
      done := true, step := .idle, buf := List.replicate s.buf.length .unspecified }

/-! ### Turns -/

/-- A step runs the decoded instruction: an issued word, the state in `step` on a scripted engine turn, and the same
after a free move of the environment when no turn is scripted. -/
def Obligations.StepRunsDecoded : Prop :=
  ∀ (s : State) (i : Instr),
    (∀ w rest, s.turns = .issue w :: rest → decode (.cmd w) = .ok i → step s = exec i { s with turns := rest }) ∧
    (∀ rest, s.turns = .engine :: rest → decode (.step s.step.code) = .ok i →
      step s = exec i { s with turns := rest }) ∧
    (s.turns = [] → decode (.step s.step.code) = .ok i → step s = exec i s.envFree)

/-- A move of the environment, free or scripted, leaves the engine and the parameters alone (R20, R57). That it leaves
`ack_enable` and `pos` too is the model's reading (DEDUCED, log 32). -/
def Obligations.EnvironmentFrame : Prop :=
  ∀ (s : State) (m : EnvMove),
    (s.envMove m).engineView = s.engineView ∧ s.envFree.engineView = s.engineView ∧
    (s.envMove m).ackEnable = s.ackEnable ∧ s.envFree.ackEnable = s.ackEnable ∧
    (s.envMove m).pos = s.pos ∧ s.envFree.pos = s.pos ∧
    (s.envMove m).params = s.params ∧ s.envFree.params = s.params ∧
    (s.envMove m).flags = m.flags ∧ (s.envMove m).data = m.data

/-- The reset event (R230): the engine's registers take their reset values, and no field of the controller, no
parameter and nothing behind the register interface changes. That `cmd`, `idx` and `ack_policy` take blank values is
log 4's. -/
def Obligations.ResetEventEffect : Prop :=
  ∀ (s : State) (rest : List Turn), s.turns = .reset :: rest →
    step s = .next { s with
      turns := rest, step := .idle, done := false, status := .noResult, fault := false, polls := 0, buf := []
      trace := [], cmd := ⟨.write, 0, 0, 0, 0⟩, idx := 0, ackPolicy := false }

/-- The host's reading of the result (R16, R17, R206, R217). A read of `status` answers the register and changes nothing;
the host has a result only while `done` is true, and in a state that meets the invariant of CommandInvariantKept the
register is `NONE` until then. `buf` is read only after a read that ended with `OK`, from a cell that holds a byte, and
after such a read, in a state that meets that invariant, every cell can be. An allowed read changes nothing. The faults,
and which of several is given, are the model's (log 11). -/
def Obligations.HostReadGuarded : Prop :=
  ∀ (s : State) (i : Nat),
    (s.hostReadStatus = s.status ∧ s.readStatusTurn = .next s) ∧
    (s.done = true → s.hostResult = some s.status) ∧
    (s.done = false → s.hostResult = none) ∧
    (s.CommandOk → s.done = false → s.hostReadStatus = .noResult) ∧
    (s.done = false → s.readBufTurn i = .fault .bufReadBeforeDone) ∧
    (s.done = true → s.buf.length ≤ i → s.readBufTurn i = .fault .bufNoSuchCell) ∧
    (s.done = true → s.buf[i]? = some .empty → s.readBufTurn i = .fault .bufCellEmpty) ∧
    (s.done = true → s.buf[i]? = some .unspecified → s.readBufTurn i = .fault .bufCellUnspecified) ∧
    (∀ b, s.done = true → s.buf[i]? = some (.byte b) →
      (s.status ≠ .ok → s.readBufTurn i = .fault .bufAfterFailure) ∧
      (s.status = .ok → s.cmd.dir = .write → s.readBufTurn i = .fault .bufOfWrite) ∧
      (s.status = .ok → s.cmd.dir = .read → s.hostReadBuf i = .ok b ∧ s.readBufTurn i = .next s)) ∧
    (s.CommandOk → s.step = .idle → s.status = .ok → s.cmd.dir = .read → i < s.cmd.length →
      ∃ b, s.hostReadBuf i = .ok b)

/-- The platform writes the two control bits between commands (R232 item 4, R243) and is refused while one runs
(R214; the refusal is log 17's). -/
def Obligations.PlatformOnlyBetweenCommands : Prop :=
  ∀ (s : State) (a p : Bool),
    (s.step = .idle → s.platformTurn a p = .next { s with ackEnable := a, pos := p }) ∧
    (s.step ≠ .idle → s.platformTurn a p = .refused .concurrentAccess)

/-- A word placed for the next step is run by it (logs 12 and 13): a command word by its issue, a state code by the
engine in that state, and an address byte that is no state code (44 and above for `SLA_W`, 43 and above for `SLA_R`) by
the state that sends it. -/
def Obligations.PlacedWordRuns : Prop :=
  ∀ s : State,
    (∀ w : Nat, step (s.withFetchWord 32 w) = exec (decodeCmd (BitVec.ofNat 32 w)) s) ∧
    (∀ n : Step, step (s.withFetchWord 8 n.code.toNat) = exec n.instr { s with step := n }) ∧
    (∀ a : SlaveAddr, 22 ≤ a.toNat →
      step (s.withFetchWord 8 (2 * a.toNat)) =
        exec .p3AddrW { s with cmd := { s.cmd with slave := a }, step := .p3AddrW }) ∧
    ∀ a : SlaveAddr, 21 ≤ a.toNat →
      step (s.withFetchWord 8 (2 * a.toNat + 1)) =
        exec .r2AddrR { s with cmd := { s.cmd with slave := a }, step := .r2AddrR }

/-! ### With the simulated conforming controller (R58 to R66; the fixture is the model's, logs 19 to 22 and 35 to 39) -/

/-- A byte written while a register is selected is stored in that register and nowhere else (R65). -/
def Obligations.ConformingStore : Prop :=
  ∀ (s : State) (b : Byte) (a : Nat), Memory.wf s.bus.mem → s.bus.phase = .store → s.bus.ptr < 256 →
    Memory.read a (s.react (.dataWrite b)).bus.mem =
      if a = 256 * s.bus.slave.toNat + s.bus.ptr then b else Memory.read a s.bus.mem

/-- A write to a slave that is present, on a quiet bus, completes with `OK` after its issue and 13 turns; the wire
shows the frame of R74, the slave register holds the value, and every other one is as it was. -/
def Obligations.ConformingWrite : Prop :=
  ∀ (slave : SlaveAddr) (reg value : Byte) (s : State), s.QuietWith slave → Memory.wf s.bus.mem →
    s.turns = .issue (encodeWrite slave reg value 0) :: List.replicate 13 .conforming →
    ∃ t, core.run 14 s = .next t ∧ t.QuietWith slave ∧ t.status = .ok ∧ t.done = true ∧
      t.bus.wire = s.bus.wire ++ writeFrame slave reg value ∧
      ∀ a, Memory.read a t.bus.mem = if a = slaveCell slave reg then value else Memory.read a s.bus.mem

/-- A read of one byte from a slave that is present, on a quiet bus, completes with `OK` after its issue and 21 turns:
`buf` holds the register's byte and the wire shows the frame of R75. -/
def Obligations.ConformingReadOne : Prop :=
  ∀ (slave : SlaveAddr) (reg : Byte) (s : State), s.QuietWith slave → s.params = Params.default →
    s.turns = .issue (encodeRead slave reg 1) :: List.replicate 21 .conforming →
    ∃ t, core.run 22 s = .next t ∧ t.QuietWith slave ∧ t.status = .ok ∧ t.done = true ∧
      t.buf = (burst s.bus.mem slave reg 1).map .byte ∧
      t.bus.wire = s.bus.wire ++ readFrame slave reg (burst s.bus.mem slave reg 1) ∧ t.bus.mem = s.bus.mem

/-- The same for two bytes, after 24 turns: with `pos` set the first byte is acknowledged and the second is not. -/
def Obligations.ConformingReadTwo : Prop :=
  ∀ (slave : SlaveAddr) (reg : Byte) (s : State), s.QuietWith slave → s.params = Params.default →
    reg.toNat + 2 ≤ 256 → s.turns = .issue (encodeRead slave reg 2) :: List.replicate 24 .conforming →
    ∃ t, core.run 25 s = .next t ∧ t.QuietWith slave ∧ t.status = .ok ∧ t.done = true ∧
      t.buf = (burst s.bus.mem slave reg 2).map .byte ∧
      t.bus.wire = s.bus.wire ++ readFrame slave reg (burst s.bus.mem slave reg 2) ∧ t.bus.mem = s.bus.mem

/-- The same for `n >= 3` bytes, after `3 n + 18` turns: `buf` holds the consecutive registers in order, each byte but
the last is acknowledged, and there is one STOP. -/
def Obligations.ConformingReadMany : Prop :=
  ∀ (slave : SlaveAddr) (reg : Byte) (n : Nat) (s : State), s.QuietWith slave → s.params = Params.default →
    3 ≤ n → reg.toNat + n ≤ 256 →
    s.turns = .issue (encodeRead slave reg (BitVec.ofNat 16 n)) :: List.replicate (3 * n + 18) .conforming →
    ∃ t, core.run (3 * n + 19) s = .next t ∧ t.QuietWith slave ∧ t.status = .ok ∧ t.done = true ∧
      t.buf = (burst s.bus.mem slave reg n).map .byte ∧
      t.bus.wire = s.bus.wire ++ readFrame slave reg (burst s.bus.mem slave reg n) ∧ t.bus.mem = s.bus.mem

/-- Write, then read back one byte: the same value, for every slave, register and value (95_test_vectors.md T1). -/
def Obligations.WriteThenReadBack : Prop :=
  ∀ (slave : SlaveAddr) (reg value : Byte) (s : State), s.QuietWith slave → Memory.wf s.bus.mem →
    s.params = Params.default →
    s.turns = .issue (encodeWrite slave reg value 0) :: (List.replicate 13 .conforming ++
      .issue (encodeRead slave reg 1) :: List.replicate 21 .conforming) →
    ∃ t, core.run 36 s = .next t ∧ t.status = .ok ∧ t.done = true ∧ t.buf = [.byte value]

/-! ### Around the engine -/

/-- The accelerometer driver's words and samples (R219): the two command words of the source's scenario; the sample
of two bytes, which is the signed big-endian value with its two low bits dropped and so lies in 14 bits; and the three
axes of the burst, formed from the cells of `buf` in the order X, Y, Z, high byte first, and only after a read that ended
with `OK` (R206). The driver is outside the engine (log 29). -/
def Obligations.DriverWordsAndSamples : Prop :=
  accelActivate = 0x00192A3A#32 ∧ accelBurst = 0x0006013B#32 ∧
  (∀ high low : Byte,
    4 * axisSample high low ≤ (high ++ low).toInt ∧ (high ++ low).toInt < 4 * axisSample high low + 4 ∧
    -8192 ≤ axisSample high low ∧ axisSample high low < 8192) ∧
  (∀ (s : State) (b₀ b₁ b₂ b₃ b₄ b₅ : Byte), s.done = true → s.status = .ok → s.cmd.dir = .read →
    s.buf = [b₀, b₁, b₂, b₃, b₄, b₅].map .byte →
    s.accelSample .x = .ok (axisSample b₀ b₁) ∧ s.accelSample .y = .ok (axisSample b₂ b₃) ∧
      s.accelSample .z = .ok (axisSample b₄ b₅)) ∧
  ∀ (s : State) (a : Axis) (v : Int), s.accelSample a = .ok v → s.done = true ∧ s.status = .ok ∧ s.cmd.dir = .read
end

