-- ==== Sys2Proof/Laws/Memory.lean ====
section
/-! SUPPORT. The slave register space: read after write, and that every write keeps the canonical form. -/

namespace Sys2Proof.Machine

/-- A listed address of a rising list lies above its head. -/
theorem Memory.read_below {a : Nat} {m : Memory} (h : ∀ c ∈ m, a < c.1) : Memory.read a m = Memory.blank := by
  induction m with
  | nil => rfl
  | cons c m ih =>
    have hc : a < c.1 := h c (by simp)
    have hne : a ≠ c.1 := by omega
    simp only [Memory.read, hne, if_false]
    exact ih fun d hd => h d (by simp [hd])

/-- A write gives the byte written back (R65). -/
theorem Memory.read_write_same {m : Memory} (h : m.Pairwise (fun c d => c.1 < d.1)) (a : Nat) (v : Byte) :
    Memory.read a (Memory.write a v m) = v := by
  induction m with
  | nil => unfold Memory.write; split <;> simp_all [Memory.read]
  | cons c m ih =>
    obtain ⟨hc, hm⟩ := List.pairwise_cons.1 h
    unfold Memory.write
    split
    · rename_i hlt
      split
      · rename_i hv
        rw [hv]
        refine Memory.read_below fun d hd => ?_
        rcases List.mem_cons.1 hd with rfl | hd
        · exact hlt
        · exact lt_trans hlt (hc d hd)
      · simp [Memory.read]
    · split
      · rename_i heq
        split
        · rename_i hv
          rw [hv]
          exact Memory.read_below fun d hd => heq ▸ hc d hd
        · simp [Memory.read]
      · rename_i hne
        simp only [Memory.read, hne, if_false]
        exact ih hm

/-- A write leaves every other address alone. -/
theorem Memory.read_write_other {m : Memory} {a b : Nat} (hab : b ≠ a) (v : Byte) :
    Memory.read b (Memory.write a v m) = Memory.read b m := by
  induction m with
  | nil => unfold Memory.write; split <;> simp [Memory.read, hab]
  | cons c m ih =>
    unfold Memory.write
    split
    · split <;> simp [Memory.read, hab]
    · split
      · rename_i heq
        have hne : b ≠ c.1 := fun h => hab (h.trans heq.symm)
        split <;> simp [Memory.read, hab, hne]
      · simp only [Memory.read, ih]

/-- Every address a write lists was listed before or is the one written, and then its byte is not blank. -/
theorem Memory.mem_write {a : Nat} {v : Byte} {m : Memory} {c : Host.Cell} (h : c ∈ Memory.write a v m) :
    c ∈ m ∨ (c = (a, v) ∧ v ≠ Memory.blank) := by
  induction m with
  | nil =>
    unfold Memory.write at h
    split at h
    · simp at h
    · simp_all
  | cons d m ih =>
    unfold Memory.write at h
    split at h
    · split at h
      · exact .inl h
      · rcases List.mem_cons.1 h with rfl | h
        · exact .inr ⟨rfl, ‹_›⟩
        · exact .inl h
    · split at h
      · split at h
        · exact .inl (by simp [h])
        · rcases List.mem_cons.1 h with rfl | h
          · exact .inr ⟨rfl, ‹_›⟩
          · exact .inl (by simp [h])
      · rcases List.mem_cons.1 h with rfl | h
        · exact .inl (by simp)
        · exact (ih h).imp (fun h => by simp [h]) id

/-- A write keeps the canonical form. -/
theorem Memory.write_wf {m : Memory} (h : Memory.wf m) {a : Nat} (ha : a < Memory.size) (v : Byte) :
    Memory.wf (Memory.write a v m) := by
  refine ⟨?_, fun c hc => ?_⟩
  · obtain ⟨hp, -⟩ := h
    induction m with
    | nil => unfold Memory.write; split <;> simp
    | cons c m ih =>
      obtain ⟨hc, hm⟩ := List.pairwise_cons.1 hp
      unfold Memory.write
      split
      · rename_i hlt
        split
        · exact hp
        · refine List.pairwise_cons.2 ⟨fun d hd => ?_, hp⟩
          rcases List.mem_cons.1 hd with rfl | hd
          · exact hlt
          · exact lt_trans hlt (hc d hd)
      · split
        · rename_i heq
          split
          · exact hm
          · exact List.pairwise_cons.2 ⟨fun d hd => heq ▸ hc d hd, hm⟩
        · rename_i hlt hne
          refine List.pairwise_cons.2 ⟨fun d hd => ?_, ih hm⟩
          rcases Memory.mem_write hd with hd | ⟨rfl, -⟩
          · exact hc d hd
          · simp only; omega
  · rcases Memory.mem_write hc with hc | ⟨rfl, hv⟩
    · exact h.2 c hc
    · exact ⟨ha, hv⟩

/-- Every register lies inside the space (R40). -/
theorem slaveCell_lt (slave : SlaveAddr) (reg : Byte) : slaveCell slave reg < Memory.size := by
  have h1 := slave.isLt
  have h2 := reg.isLt
  simp only [slaveCell, Memory.size]
  omega

/-- Two registers share no cell. -/
theorem slaveCell_inj {a b : SlaveAddr} {r q : Byte} (h : slaveCell a r = slaveCell b q) : a = b ∧ r = q := by
  have h1 := r.isLt
  have h2 := q.isLt
  simp only [slaveCell] at h
  exact ⟨BitVec.eq_of_toNat_eq (by omega), BitVec.eq_of_toNat_eq (by omega)⟩

/-- Storing a list of registers keeps the canonical form. -/
theorem Memory.writeAll_wf (l : List (SlaveAddr × Byte × Byte)) {m : Memory} (h : Memory.wf m) :
    Memory.wf (m.writeAll l) := by
  induction l generalizing m with
  | nil => exact h
  | cons x l ih => exact ih (Memory.write_wf h (slaveCell_lt _ _) _)

end Sys2Proof.Machine
end

