-- ==== Sys2Proof/Laws/State.lean ====
section
/-! SUPPORT. One lemma per field per update of State, true by the record update, so that no later proof unfolds one. -/

namespace Sys2Proof.Machine

variable (s : State)

/-! ### `log` -/

@[simp] theorem log_step (e : Event) : (s.log e).step = s.step := rfl
@[simp] theorem log_cmd (e : Event) : (s.log e).cmd = s.cmd := rfl
@[simp] theorem log_idx (e : Event) : (s.log e).idx = s.idx := rfl
@[simp] theorem log_polls (e : Event) : (s.log e).polls = s.polls := rfl
@[simp] theorem log_ackPolicy (e : Event) : (s.log e).ackPolicy = s.ackPolicy := rfl
@[simp] theorem log_status (e : Event) : (s.log e).status = s.status := rfl
@[simp] theorem log_done (e : Event) : (s.log e).done = s.done := rfl
@[simp] theorem log_buf (e : Event) : (s.log e).buf = s.buf := rfl
@[simp] theorem log_fault (e : Event) : (s.log e).fault = s.fault := rfl
@[simp] theorem log_trace (e : Event) : (s.log e).trace = s.trace ++ [e] := rfl
@[simp] theorem log_flags (e : Event) : (s.log e).flags = s.flags := rfl
@[simp] theorem log_ackEnable (e : Event) : (s.log e).ackEnable = s.ackEnable := rfl
@[simp] theorem log_pos (e : Event) : (s.log e).pos = s.pos := rfl
@[simp] theorem log_start (e : Event) : (s.log e).start = s.start := rfl
@[simp] theorem log_stop (e : Event) : (s.log e).stop = s.stop := rfl
@[simp] theorem log_data (e : Event) : (s.log e).data = s.data := rfl
@[simp] theorem log_bus (e : Event) : (s.log e).bus = s.bus := rfl
@[simp] theorem log_params (e : Event) : (s.log e).params = s.params := rfl
@[simp] theorem log_turns (e : Event) : (s.log e).turns = s.turns := rfl
@[simp] theorem log_tick (e : Event) : (s.log e).tick = s.tick := rfl

/-! ### `bitSet` -/

@[simp] theorem bitSet_step (b : Bit) : (s.bitSet b).step = s.step := by cases b <;> rfl
@[simp] theorem bitSet_cmd (b : Bit) : (s.bitSet b).cmd = s.cmd := by cases b <;> rfl
@[simp] theorem bitSet_idx (b : Bit) : (s.bitSet b).idx = s.idx := by cases b <;> rfl
@[simp] theorem bitSet_polls (b : Bit) : (s.bitSet b).polls = s.polls := by cases b <;> rfl
@[simp] theorem bitSet_ackPolicy (b : Bit) : (s.bitSet b).ackPolicy = s.ackPolicy := by cases b <;> rfl
@[simp] theorem bitSet_status (b : Bit) : (s.bitSet b).status = s.status := by cases b <;> rfl
@[simp] theorem bitSet_done (b : Bit) : (s.bitSet b).done = s.done := by cases b <;> rfl
@[simp] theorem bitSet_buf (b : Bit) : (s.bitSet b).buf = s.buf := by cases b <;> rfl
@[simp] theorem bitSet_fault (b : Bit) : (s.bitSet b).fault = s.fault := by cases b <;> rfl
@[simp] theorem bitSet_trace (b : Bit) : (s.bitSet b).trace = s.trace ++ [.bitSet b] := by cases b <;> rfl
@[simp] theorem bitSet_flags (b : Bit) : (s.bitSet b).flags = s.flags := by cases b <;> rfl
@[simp] theorem bitSet_data (b : Bit) : (s.bitSet b).data = s.data := by cases b <;> rfl
@[simp] theorem bitSet_bus (b : Bit) : (s.bitSet b).bus = s.bus := by cases b <;> rfl
@[simp] theorem bitSet_params (b : Bit) : (s.bitSet b).params = s.params := by cases b <;> rfl
@[simp] theorem bitSet_turns (b : Bit) : (s.bitSet b).turns = s.turns := by cases b <;> rfl
@[simp] theorem bitSet_tick (b : Bit) : (s.bitSet b).tick = s.tick := by cases b <;> rfl

/-! ### `bitClear` -/

@[simp] theorem bitClear_step (b : Bit) : (s.bitClear b).step = s.step := by cases b <;> rfl
@[simp] theorem bitClear_cmd (b : Bit) : (s.bitClear b).cmd = s.cmd := by cases b <;> rfl
@[simp] theorem bitClear_idx (b : Bit) : (s.bitClear b).idx = s.idx := by cases b <;> rfl
@[simp] theorem bitClear_polls (b : Bit) : (s.bitClear b).polls = s.polls := by cases b <;> rfl
@[simp] theorem bitClear_ackPolicy (b : Bit) : (s.bitClear b).ackPolicy = s.ackPolicy := by cases b <;> rfl
@[simp] theorem bitClear_status (b : Bit) : (s.bitClear b).status = s.status := by cases b <;> rfl
@[simp] theorem bitClear_done (b : Bit) : (s.bitClear b).done = s.done := by cases b <;> rfl
@[simp] theorem bitClear_buf (b : Bit) : (s.bitClear b).buf = s.buf := by cases b <;> rfl
@[simp] theorem bitClear_fault (b : Bit) : (s.bitClear b).fault = s.fault := by cases b <;> rfl
@[simp] theorem bitClear_trace (b : Bit) : (s.bitClear b).trace = s.trace ++ [.bitClear b] := by cases b <;> rfl
@[simp] theorem bitClear_flags (b : Bit) : (s.bitClear b).flags = s.flags := by cases b <;> rfl
@[simp] theorem bitClear_data (b : Bit) : (s.bitClear b).data = s.data := by cases b <;> rfl
@[simp] theorem bitClear_bus (b : Bit) : (s.bitClear b).bus = s.bus := by cases b <;> rfl
@[simp] theorem bitClear_params (b : Bit) : (s.bitClear b).params = s.params := by cases b <;> rfl
@[simp] theorem bitClear_turns (b : Bit) : (s.bitClear b).turns = s.turns := by cases b <;> rfl
@[simp] theorem bitClear_tick (b : Bit) : (s.bitClear b).tick = s.tick := by cases b <;> rfl

/-! ### `dataWrite` -/

@[simp] theorem dataWrite_step (v : Byte) : (s.dataWrite v).step = s.step := rfl
@[simp] theorem dataWrite_cmd (v : Byte) : (s.dataWrite v).cmd = s.cmd := rfl
@[simp] theorem dataWrite_idx (v : Byte) : (s.dataWrite v).idx = s.idx := rfl
@[simp] theorem dataWrite_polls (v : Byte) : (s.dataWrite v).polls = s.polls := rfl
@[simp] theorem dataWrite_ackPolicy (v : Byte) : (s.dataWrite v).ackPolicy = s.ackPolicy := rfl
@[simp] theorem dataWrite_status (v : Byte) : (s.dataWrite v).status = s.status := rfl
@[simp] theorem dataWrite_done (v : Byte) : (s.dataWrite v).done = s.done := rfl
@[simp] theorem dataWrite_buf (v : Byte) : (s.dataWrite v).buf = s.buf := rfl
@[simp] theorem dataWrite_fault (v : Byte) : (s.dataWrite v).fault = s.fault := rfl
@[simp] theorem dataWrite_trace (v : Byte) : (s.dataWrite v).trace = s.trace ++ [.dataWrite v] := rfl
@[simp] theorem dataWrite_flags (v : Byte) : (s.dataWrite v).flags = s.flags := rfl
@[simp] theorem dataWrite_ackEnable (v : Byte) : (s.dataWrite v).ackEnable = s.ackEnable := rfl
@[simp] theorem dataWrite_pos (v : Byte) : (s.dataWrite v).pos = s.pos := rfl
@[simp] theorem dataWrite_start (v : Byte) : (s.dataWrite v).start = s.start := rfl
@[simp] theorem dataWrite_stop (v : Byte) : (s.dataWrite v).stop = s.stop := rfl
@[simp] theorem dataWrite_data (v : Byte) : (s.dataWrite v).data = v := rfl
@[simp] theorem dataWrite_bus (v : Byte) : (s.dataWrite v).bus = s.bus := rfl
@[simp] theorem dataWrite_params (v : Byte) : (s.dataWrite v).params = s.params := rfl
@[simp] theorem dataWrite_turns (v : Byte) : (s.dataWrite v).turns = s.turns := rfl
@[simp] theorem dataWrite_tick (v : Byte) : (s.dataWrite v).tick = s.tick := rfl

/-! ### `addrClear` -/

@[simp] theorem addrClear_step : (s.addrClear).step = s.step := rfl
@[simp] theorem addrClear_cmd : (s.addrClear).cmd = s.cmd := rfl
@[simp] theorem addrClear_idx : (s.addrClear).idx = s.idx := rfl
@[simp] theorem addrClear_polls : (s.addrClear).polls = s.polls := rfl
@[simp] theorem addrClear_ackPolicy : (s.addrClear).ackPolicy = s.ackPolicy := rfl
@[simp] theorem addrClear_status : (s.addrClear).status = s.status := rfl
@[simp] theorem addrClear_done : (s.addrClear).done = s.done := rfl
@[simp] theorem addrClear_buf : (s.addrClear).buf = s.buf := rfl
@[simp] theorem addrClear_fault : (s.addrClear).fault = s.fault := rfl
@[simp] theorem addrClear_trace : (s.addrClear).trace = s.trace ++ [.addrClear] := rfl
@[simp] theorem addrClear_flags : (s.addrClear).flags = { s.flags with addrMatched := false } := rfl
@[simp] theorem addrClear_ackEnable : (s.addrClear).ackEnable = s.ackEnable := rfl
@[simp] theorem addrClear_pos : (s.addrClear).pos = s.pos := rfl
@[simp] theorem addrClear_start : (s.addrClear).start = s.start := rfl
@[simp] theorem addrClear_stop : (s.addrClear).stop = s.stop := rfl
@[simp] theorem addrClear_data : (s.addrClear).data = s.data := rfl
@[simp] theorem addrClear_bus : (s.addrClear).bus = s.bus := rfl
@[simp] theorem addrClear_params : (s.addrClear).params = s.params := rfl
@[simp] theorem addrClear_turns : (s.addrClear).turns = s.turns := rfl
@[simp] theorem addrClear_tick : (s.addrClear).tick = s.tick := rfl

/-! ### `dataRx` -/

@[simp] theorem dataRx_step (i : Nat) : (s.dataRx i).step = s.step := rfl
@[simp] theorem dataRx_cmd (i : Nat) : (s.dataRx i).cmd = s.cmd := rfl
@[simp] theorem dataRx_idx (i : Nat) : (s.dataRx i).idx = s.idx := rfl
@[simp] theorem dataRx_polls (i : Nat) : (s.dataRx i).polls = s.polls := rfl
@[simp] theorem dataRx_ackPolicy (i : Nat) : (s.dataRx i).ackPolicy = s.ackPolicy := rfl
@[simp] theorem dataRx_status (i : Nat) : (s.dataRx i).status = s.status := rfl
@[simp] theorem dataRx_done (i : Nat) : (s.dataRx i).done = s.done := rfl
@[simp] theorem dataRx_buf (i : Nat) : (s.dataRx i).buf = s.buf.set i (.byte s.data) := rfl
@[simp] theorem dataRx_fault (i : Nat) : (s.dataRx i).fault = s.fault := rfl
@[simp] theorem dataRx_trace (i : Nat) : (s.dataRx i).trace = s.trace ++ [.dataRead s.data] := rfl
@[simp] theorem dataRx_flags (i : Nat) : (s.dataRx i).flags = s.flags := rfl
@[simp] theorem dataRx_ackEnable (i : Nat) : (s.dataRx i).ackEnable = s.ackEnable := rfl
@[simp] theorem dataRx_pos (i : Nat) : (s.dataRx i).pos = s.pos := rfl
@[simp] theorem dataRx_start (i : Nat) : (s.dataRx i).start = s.start := rfl
@[simp] theorem dataRx_stop (i : Nat) : (s.dataRx i).stop = s.stop := rfl
@[simp] theorem dataRx_data (i : Nat) : (s.dataRx i).data = s.data := rfl
@[simp] theorem dataRx_bus (i : Nat) : (s.dataRx i).bus = s.bus := rfl
@[simp] theorem dataRx_params (i : Nat) : (s.dataRx i).params = s.params := rfl
@[simp] theorem dataRx_turns (i : Nat) : (s.dataRx i).turns = s.turns := rfl
@[simp] theorem dataRx_tick (i : Nat) : (s.dataRx i).tick = s.tick := rfl

/-! ### `advance` -/

@[simp] theorem advance_step (n : Step) : (s.advance n).step = n := rfl
@[simp] theorem advance_cmd (n : Step) : (s.advance n).cmd = s.cmd := rfl
@[simp] theorem advance_idx (n : Step) : (s.advance n).idx = s.idx := rfl
@[simp] theorem advance_polls (n : Step) : (s.advance n).polls = 0 := rfl
@[simp] theorem advance_ackPolicy (n : Step) : (s.advance n).ackPolicy = s.ackPolicy := rfl
@[simp] theorem advance_status (n : Step) : (s.advance n).status = s.status := rfl
@[simp] theorem advance_done (n : Step) : (s.advance n).done = s.done := rfl
@[simp] theorem advance_buf (n : Step) : (s.advance n).buf = s.buf := rfl
@[simp] theorem advance_fault (n : Step) : (s.advance n).fault = s.fault := rfl
@[simp] theorem advance_trace (n : Step) : (s.advance n).trace = s.trace := rfl
@[simp] theorem advance_flags (n : Step) : (s.advance n).flags = s.flags := rfl
@[simp] theorem advance_ackEnable (n : Step) : (s.advance n).ackEnable = s.ackEnable := rfl
@[simp] theorem advance_pos (n : Step) : (s.advance n).pos = s.pos := rfl
@[simp] theorem advance_start (n : Step) : (s.advance n).start = s.start := rfl
@[simp] theorem advance_stop (n : Step) : (s.advance n).stop = s.stop := rfl
@[simp] theorem advance_data (n : Step) : (s.advance n).data = s.data := rfl
@[simp] theorem advance_bus (n : Step) : (s.advance n).bus = s.bus := rfl
@[simp] theorem advance_params (n : Step) : (s.advance n).params = s.params := rfl
@[simp] theorem advance_turns (n : Step) : (s.advance n).turns = s.turns := rfl
@[simp] theorem advance_tick (n : Step) : (s.advance n).tick = s.tick := rfl

/-! ### `complete` -/

@[simp] theorem complete_step : (s.complete).step = .idle := rfl
@[simp] theorem complete_cmd : (s.complete).cmd = s.cmd := rfl
@[simp] theorem complete_idx : (s.complete).idx = s.idx := rfl
@[simp] theorem complete_polls : (s.complete).polls = 0 := rfl
@[simp] theorem complete_ackPolicy : (s.complete).ackPolicy = s.ackPolicy := rfl
@[simp] theorem complete_status : (s.complete).status = .ok := rfl
@[simp] theorem complete_done : (s.complete).done = true := rfl
@[simp] theorem complete_buf : (s.complete).buf = s.buf := rfl
@[simp] theorem complete_fault : (s.complete).fault = s.fault := rfl
@[simp] theorem complete_trace : (s.complete).trace = s.trace := rfl
@[simp] theorem complete_flags : (s.complete).flags = s.flags := rfl
@[simp] theorem complete_ackEnable : (s.complete).ackEnable = s.ackEnable := rfl
@[simp] theorem complete_pos : (s.complete).pos = s.pos := rfl
@[simp] theorem complete_start : (s.complete).start = s.start := rfl
@[simp] theorem complete_stop : (s.complete).stop = s.stop := rfl
@[simp] theorem complete_data : (s.complete).data = s.data := rfl
@[simp] theorem complete_bus : (s.complete).bus = s.bus := rfl
@[simp] theorem complete_params : (s.complete).params = s.params := rfl
@[simp] theorem complete_turns : (s.complete).turns = s.turns := rfl
@[simp] theorem complete_tick : (s.complete).tick = s.tick := rfl

/-! ### `latch` -/

@[simp] theorem latch_step (c : Command) : (s.latch c).step = .p1WaitIdle := rfl
@[simp] theorem latch_cmd (c : Command) : (s.latch c).cmd = c := rfl
@[simp] theorem latch_idx (c : Command) : (s.latch c).idx = s.idx := rfl
@[simp] theorem latch_polls (c : Command) : (s.latch c).polls = 0 := rfl
@[simp] theorem latch_ackPolicy (c : Command) : (s.latch c).ackPolicy = s.ackPolicy := rfl
@[simp] theorem latch_status (c : Command) : (s.latch c).status = .noResult := rfl
@[simp] theorem latch_done (c : Command) : (s.latch c).done = false := rfl
@[simp] theorem latch_buf (c : Command) : (s.latch c).buf = s.buf := rfl
@[simp] theorem latch_fault (c : Command) : (s.latch c).fault = s.fault := rfl
@[simp] theorem latch_trace (c : Command) : (s.latch c).trace = s.trace := rfl
@[simp] theorem latch_flags (c : Command) : (s.latch c).flags = s.flags := rfl
@[simp] theorem latch_ackEnable (c : Command) : (s.latch c).ackEnable = s.ackEnable := rfl
@[simp] theorem latch_pos (c : Command) : (s.latch c).pos = s.pos := rfl
@[simp] theorem latch_start (c : Command) : (s.latch c).start = s.start := rfl
@[simp] theorem latch_stop (c : Command) : (s.latch c).stop = s.stop := rfl
@[simp] theorem latch_data (c : Command) : (s.latch c).data = s.data := rfl
@[simp] theorem latch_bus (c : Command) : (s.latch c).bus = s.bus := rfl
@[simp] theorem latch_params (c : Command) : (s.latch c).params = s.params := rfl
@[simp] theorem latch_turns (c : Command) : (s.latch c).turns = s.turns := rfl
@[simp] theorem latch_tick (c : Command) : (s.latch c).tick = s.tick := rfl

@[simp] theorem bitSet_ackEnable (b : Bit) : (s.bitSet b).ackEnable = if b = .ackEnable then true else s.ackEnable := by cases b <;> rfl
@[simp] theorem bitSet_pos (b : Bit) : (s.bitSet b).pos = if b = .pos then true else s.pos := by cases b <;> rfl
@[simp] theorem bitSet_start (b : Bit) : (s.bitSet b).start = if b = .start then true else s.start := by cases b <;> rfl
@[simp] theorem bitSet_stop (b : Bit) : (s.bitSet b).stop = if b = .stop then true else s.stop := by cases b <;> rfl

@[simp] theorem bitClear_ackEnable (b : Bit) : (s.bitClear b).ackEnable = if b = .ackEnable then false else s.ackEnable := by cases b <;> rfl
@[simp] theorem bitClear_pos (b : Bit) : (s.bitClear b).pos = if b = .pos then false else s.pos := by cases b <;> rfl
@[simp] theorem bitClear_start (b : Bit) : (s.bitClear b).start = if b = .start then false else s.start := by cases b <;> rfl
@[simp] theorem bitClear_stop (b : Bit) : (s.bitClear b).stop = if b = .stop then false else s.stop := by cases b <;> rfl

/-! ### `raise` -/

@[simp] theorem raise_abort_step (c : Status) : (s.raise (.abort c)).step = .idle := rfl
@[simp] theorem raise_abort_cmd (c : Status) : (s.raise (.abort c)).cmd = s.cmd := rfl
@[simp] theorem raise_abort_idx (c : Status) : (s.raise (.abort c)).idx = s.idx := rfl
@[simp] theorem raise_abort_polls (c : Status) : (s.raise (.abort c)).polls = 0 := rfl
@[simp] theorem raise_abort_ackPolicy (c : Status) : (s.raise (.abort c)).ackPolicy = s.ackPolicy := rfl
@[simp] theorem raise_abort_status (c : Status) : (s.raise (.abort c)).status = c := rfl
@[simp] theorem raise_abort_done (c : Status) : (s.raise (.abort c)).done = true := rfl
@[simp] theorem raise_abort_buf (c : Status) : (s.raise (.abort c)).buf = s.buf.map fun _ => .unspecified := rfl
@[simp] theorem raise_abort_fault (c : Status) : (s.raise (.abort c)).fault = s.fault := rfl
@[simp] theorem raise_abort_trace (c : Status) : (s.raise (.abort c)).trace = s.trace := rfl
@[simp] theorem raise_abort_flags (c : Status) : (s.raise (.abort c)).flags = s.flags := rfl
@[simp] theorem raise_abort_ackEnable (c : Status) : (s.raise (.abort c)).ackEnable = s.ackEnable := rfl
@[simp] theorem raise_abort_pos (c : Status) : (s.raise (.abort c)).pos = s.pos := rfl
@[simp] theorem raise_abort_start (c : Status) : (s.raise (.abort c)).start = s.start := rfl
@[simp] theorem raise_abort_stop (c : Status) : (s.raise (.abort c)).stop = s.stop := rfl
@[simp] theorem raise_abort_data (c : Status) : (s.raise (.abort c)).data = s.data := rfl
@[simp] theorem raise_abort_bus (c : Status) : (s.raise (.abort c)).bus = s.bus := rfl
@[simp] theorem raise_abort_params (c : Status) : (s.raise (.abort c)).params = s.params := rfl
@[simp] theorem raise_abort_turns (c : Status) : (s.raise (.abort c)).turns = s.turns := rfl
@[simp] theorem raise_abort_tick (c : Status) : (s.raise (.abort c)).tick = s.tick := rfl
@[simp] theorem raise_reject_step : (s.raise .reject).step = .idle := rfl
@[simp] theorem raise_reject_cmd : (s.raise .reject).cmd = s.cmd := rfl
@[simp] theorem raise_reject_idx : (s.raise .reject).idx = s.idx := rfl
@[simp] theorem raise_reject_polls : (s.raise .reject).polls = s.polls := rfl
@[simp] theorem raise_reject_ackPolicy : (s.raise .reject).ackPolicy = s.ackPolicy := rfl
@[simp] theorem raise_reject_status : (s.raise .reject).status = .rejected := rfl
@[simp] theorem raise_reject_done : (s.raise .reject).done = true := rfl
@[simp] theorem raise_reject_buf : (s.raise .reject).buf = s.buf := rfl
@[simp] theorem raise_reject_fault : (s.raise .reject).fault = s.fault := rfl
@[simp] theorem raise_reject_trace : (s.raise .reject).trace = s.trace := rfl
@[simp] theorem raise_reject_flags : (s.raise .reject).flags = s.flags := rfl
@[simp] theorem raise_reject_ackEnable : (s.raise .reject).ackEnable = s.ackEnable := rfl
@[simp] theorem raise_reject_pos : (s.raise .reject).pos = s.pos := rfl
@[simp] theorem raise_reject_start : (s.raise .reject).start = s.start := rfl
@[simp] theorem raise_reject_stop : (s.raise .reject).stop = s.stop := rfl
@[simp] theorem raise_reject_data : (s.raise .reject).data = s.data := rfl
@[simp] theorem raise_reject_bus : (s.raise .reject).bus = s.bus := rfl
@[simp] theorem raise_reject_params : (s.raise .reject).params = s.params := rfl
@[simp] theorem raise_reject_turns : (s.raise .reject).turns = s.turns := rfl
@[simp] theorem raise_reject_tick : (s.raise .reject).tick = s.tick := rfl

end Sys2Proof.Machine
end

