-- ==== Sys2Proof/Laws/Ops.lean ====
section
/-! SUPPORT. What each shared operation can do, said once: the poll step, the issue, the signaler, the end of a
command, the host's reading of the buffer. -/

namespace Sys2Proof.Machine

variable (s : State)

/-! ### The poll step -/

/-- The wanted sample (R91). -/
theorem wait_hit {f : Flag} {want : Bool} (k : State → State) (h : s.flags.get f = want) :
    s.wait f want k = k (s.log (.flagRead f want)) := by
  simp [State.wait, h]

/-- An unwanted sample that does not spend the budget: the wait stays (R91, R200). -/
theorem wait_stay {f : Flag} {want : Bool} (k : State → State) (h : s.flags.get f ≠ want)
    (hb : s.params.pollBudget ≠ some (s.polls + 1)) :
    s.wait f want k = { s.log (.flagRead f !want) with polls := s.polls + 1 } := by
  have hf : s.flags.get f = !want := by revert h; cases s.flags.get f <;> cases want <;> simp
  simp [State.wait, hf, hb]

/-- An unwanted sample that spends the budget: the command aborts (R91, R202). -/
theorem wait_abort {f : Flag} {want : Bool} (k : State → State) (h : s.flags.get f ≠ want)
    (hb : s.params.pollBudget = some (s.polls + 1)) :
    s.wait f want k = (s.log (.flagRead f !want)).raise (.abort (abortClass f)) := by
  have hf : s.flags.get f = !want := by revert h; cases s.flags.get f <;> cases want <;> simp
  simp [State.wait, hf, hb]

/-- Everything a poll step can do (R91). -/
theorem wait_cases (f : Flag) (want : Bool) (k : State → State) :
    (s.flags.get f = want ∧ s.wait f want k = k (s.log (.flagRead f want))) ∨
    (s.flags.get f ≠ want ∧ s.params.pollBudget ≠ some (s.polls + 1) ∧
      s.wait f want k = { s.log (.flagRead f !want) with polls := s.polls + 1 }) ∨
    (s.flags.get f ≠ want ∧ s.params.pollBudget = some (s.polls + 1) ∧
      s.wait f want k = (s.log (.flagRead f !want)).raise (.abort (abortClass f))) := by
  by_cases h : s.flags.get f = want
  · exact .inl ⟨h, wait_hit s k h⟩
  · by_cases hb : s.params.pollBudget = some (s.polls + 1)
    · exact .inr (.inr ⟨h, hb, wait_abort s k h hb⟩)
    · exact .inr (.inl ⟨h, hb, wait_stay s k h hb⟩)

/-! ### The issue -/

/-- At `IDLE` the issue is accepted or rejected (R95). -/
theorem issued_idle {k : State → State} (h : s.step = .idle) : s.issued k = k s := by simp [State.issued, h]

/-- At any other state the mark is set and nothing else happens (R215). -/
theorem issued_busy {k : State → State} (h : s.step ≠ .idle) : s.issued k = { s with fault := true } := by
  simp [State.issued, h]

/-! ### The signaler and the data movers -/

@[simp] theorem sigStart_eq : s.sigStart = s.bitSet .start := rfl
@[simp] theorem sigStop_eq : s.sigStop = s.bitSet .stop := rfl
@[simp] theorem sigAddrW_eq (a : SlaveAddr) : s.sigAddrW a = s.dataWrite (slaWrite a) := rfl
@[simp] theorem sigAddrR_eq (a : SlaveAddr) : s.sigAddrR a = s.dataWrite (slaRead a) := rfl
@[simp] theorem sigAck_eq : s.sigAck = { s.bitSet .ackEnable with ackPolicy := true } := rfl
@[simp] theorem sigNack_eq : s.sigNack = { s.bitClear .ackEnable with ackPolicy := false } := rfl
@[simp] theorem sigPosSet_eq : s.sigPosSet = s.bitSet .pos := rfl
@[simp] theorem sigPosClr_eq : s.sigPosClr = s.bitClear .pos := rfl
@[simp] theorem sigAddrClear_eq : s.sigAddrClear = s.addrClear := rfl
@[simp] theorem dataTx_eq (v : Byte) : s.dataTx v = s.dataWrite v := rfl

/-! ### Operand forms -/

theorem streamOrTail_stream {i n : Nat} (h : i < n - 3) : streamOrTail i n = .snStreamWait := by
  simp [streamOrTail, h]

theorem streamOrTail_tail {i n : Nat} (h : ¬i < n - 3) : streamOrTail i n = .snTailWaitBtf := by
  simp [streamOrTail, h]

theorem firstOfPath_long {n : Nat} (h : 3 ≤ n) : firstOfPath n = .snAddrClr := by
  have h1 : n ≠ 1 := by omega
  have h2 : n ≠ 2 := by omega
  simp [firstOfPath, h1, h2]

/-- The host gets a byte of `buf` exactly after a read that ended with `OK`, from a cell that holds it (R17, R217). -/
theorem hostReadBuf_ok {s : State} {i : Nat} {b : Byte} :
    s.hostReadBuf i = .ok b ↔
      s.done = true ∧ s.status = .ok ∧ s.cmd.dir = .read ∧ s.buf[i]? = some (.byte b) := by
  unfold State.hostReadBuf
  cases s.done <;> cases s.cmd.dir <;> rcases s.buf[i]? with _ | _ | _ | _ <;> by_cases h : s.status = .ok <;> simp [h]

/-- The host has a result exactly while `done` is true, and it is `status` (R217). -/
theorem hostResult_eq_some {s : State} {c : Status} : s.hostResult = some c ↔ s.done = true ∧ s.status = c := by
  unfold State.hostResult State.hostReadStatus
  cases s.done <;> simp

end Sys2Proof.Machine
end

