-- ==== Sys2Proof/Laws/Bus.lean ====
section
/-! SUPPORT. What the environment can do: it changes no register of the engine, no control bit that outlives a command
and no field of the model's own, and it keeps the slave register space canonical. -/

namespace Sys2Proof.Machine

/-- The fields the environment may change, given anew: every other field is `s`'s. -/
def State.withEnv (s : State) (fl : Flags) (st sp : Bool) (d : Byte) (b : Bus) : State :=
  { s with flags := fl, start := st, stop := sp, data := d, bus := b }

/-- Everything a reaction of the conforming controller can do to the state. -/
theorem react_cases (s : State) (e : Event) :
    ∃ fl st sp d b, s.react e = s.withEnv fl st sp d b ∧ (Memory.wf s.bus.mem → Memory.wf b.mem) := by
  have keep : ∃ fl st sp d b, s = s.withEnv fl st sp d b ∧ (Memory.wf s.bus.mem → Memory.wf b.mem) :=
    ⟨_, _, _, _, _, rfl, id⟩
  cases e with
  | flagRead f a =>
    simp only [State.react, State.busIdleTime]
    split
    · split
      · exact ⟨_, _, _, _, _, rfl, id⟩
      · exact keep
    · split
      · exact keep
      · simp only [State.busReceive]
        split <;> split <;> exact ⟨_, _, _, _, _, rfl, id⟩
    all_goals exact keep
  | bitSet b =>
    cases b with
    | start => exact ⟨_, _, _, _, _, rfl, id⟩
    | stop => simp only [State.react, State.busStopAsked]; repeat' split
              all_goals first | exact keep | exact ⟨_, _, _, _, _, rfl, id⟩
    | ackEnable => exact keep
    | pos => exact keep
  | bitClear b => cases b <;> exact keep
  | dataWrite v =>
    simp only [State.react, State.busTransmit]
    split
    · simp only [State.busAddress]
      split
      · split <;> exact ⟨_, _, _, _, _, rfl, id⟩
      · exact ⟨_, _, _, _, _, rfl, id⟩
    · exact ⟨_, _, _, _, _, rfl, id⟩
    · exact ⟨_, _, _, _, _, rfl, fun h => Memory.write_wf h (slaveCell_lt _ _) _⟩
    all_goals exact keep
  | dataRead v => simp only [State.react, State.busTaken]; split <;> exact ⟨_, _, _, _, _, rfl, id⟩
  | addrClear =>
    simp only [State.react]
    split
    · exact ⟨_, _, _, _, _, rfl, id⟩
    · exact keep

/-- Reacting to several operations in turn changes the same fields only. -/
theorem react_all_cases (l : List Event) (s : State) :
    ∃ fl st sp d b, l.foldl State.react s = s.withEnv fl st sp d b ∧ (Memory.wf s.bus.mem → Memory.wf b.mem) := by
  induction l generalizing s with
  | nil => exact ⟨_, _, _, _, _, rfl, id⟩
  | cons e l ih =>
    obtain ⟨f1, a1, b1, d1, u1, h1, w1⟩ := react_cases s e
    obtain ⟨f2, a2, b2, d2, u2, h2, w2⟩ := ih (s.react e)
    refine ⟨f2, a2, b2, d2, u2, ?_, fun h => w2 ?_⟩
    · rw [List.foldl_cons, h2, h1]; rfl
    · rw [h1]; exact w1 h

/-- A move of the environment changes the same fields only. -/
theorem envMove_cases (s : State) (m : EnvMove) :
    ∃ fl st sp d b, s.envMove m = s.withEnv fl st sp d b ∧ (Memory.wf s.bus.mem → Memory.wf b.mem) :=
  ⟨_, _, _, _, _, rfl, fun h => Memory.writeAll_wf _ h⟩

/-- So does a free move, which also advances the count of free values. -/
theorem envFree_cases (s : State) :
    ∃ fl st sp d b, s.envFree = { s.withEnv fl st sp d b with tick := s.tick + 1 } ∧
      (Memory.wf s.bus.mem → Memory.wf b.mem) :=
  ⟨_, _, _, _, _, rfl, fun h => Memory.writeAll_wf _ h⟩

/-! ### The conforming fixture, operation by operation -/

/-- Putting symbols on the wire changes the wire only. -/
@[simp] theorem onWire_wire (s : State) (l : List Symbol) : (s.onWire l).bus.wire = s.bus.wire ++ l := rfl
@[simp] theorem onWire_mem (s : State) (l : List Symbol) : (s.onWire l).bus.mem = s.bus.mem := rfl
@[simp] theorem onWire_flags (s : State) (l : List Symbol) : (s.onWire l).flags = s.flags := rfl
@[simp] theorem onWire_data (s : State) (l : List Symbol) : (s.onWire l).data = s.data := rfl

/-- The START's effect on the flags (R59). -/
theorem busStart_flags (s : State) :
    s.busStart.flags = { s.flags with busy := true, startSent := true, addrMatched := false } := rfl

/-- The STOP's effect on the flags (R58, R64). -/
theorem busStop_flags (s : State) :
    s.busStop.flags = { s.flags with busy := false, startSent := false, txDir := false } := rfl

/-- Nothing but `data` and the count of free values changes when the controller presents a byte; it does so only to a
state that reads data. -/
theorem busPresent_cases (s : State) :
    s.busPresent = s ∨
      (readsData s.step = true ∧ s.flags.rxNotEmpty = false ∧
        s.busPresent = { s with data := Config.noByte s.tick, tick := s.tick + 1 }) := by
  unfold State.busPresent
  split
  · rename_i h; simp at h; exact .inr ⟨h.1, h.2, rfl⟩
  · exact .inl rfl

/-- An unread byte is what a data read finds (R62). -/
theorem busPresent_unread {s : State} (h : s.flags.rxNotEmpty = true) : s.busPresent = s := by
  simp [State.busPresent, h]

/-- A state that reads no data finds nothing changed. -/
theorem busPresent_noRead {s : State} (h : readsData s.step = false) : s.busPresent = s := by
  simp [State.busPresent, h]

/-- A STOP asked for while a byte is being received waits for it (R64). -/
theorem busStopAsked_receiving {s : State} (h : s.bus.phase = .receiving) (hb : s.busHeld = false) :
    s.busStopAsked = s := by
  simp [State.busStopAsked, h, hb]

/-- A STOP asked for inside a transaction while no byte is being received goes out at once (R64). -/
theorem busStopAsked_now {s : State} (hi : s.bus.phase ≠ .idle) (h : s.bus.phase = .receiving → s.busHeld = true) :
    s.busStopAsked = s.busStop := by
  unfold State.busStopAsked
  split <;> simp_all

/-- A slave that is not present leaves `addr_matched` clear (R60). -/
theorem busAddress_absent {s : State} {b : Byte} (h : s.bus.present.contains (b.extractLsb' 1 7) = false) :
    (s.busAddress b).flags.addrMatched = false := by
  simp only [State.busAddress, h, Bool.false_eq_true, if_false]

/-- A slave that is present sets it (R60). -/
theorem busAddress_present {s : State} {b : Byte} (h : s.bus.present.contains (b.extractLsb' 1 7) = true) :
    (s.busAddress b).flags.addrMatched = true := by
  simp only [State.busAddress, h, if_true]
  split <;> rfl

end Sys2Proof.Machine
end

