-- ==== Sys2Proof/Laws/PerInstr.lean ====
section
/-! SUPPORT. Per instruction: its encoded word falls under the mask and match of its own row of `spec/opcode_table.json`, which
are copied here from the table. -/

namespace Sys2Proof.Laws.TableRow

/-- The format, mask and match of a row. -/
inductive Row where
  | cmd (mask pattern : CmdWord)
  | addrByte (mask pattern : Byte)
  | step (mask pattern : StepCode)
  deriving DecidableEq, Repr

/-- A word falls under a row: the format is the row's and the masked bits are the row's match. -/
def Row.covers : Row → Encoded → Prop
  | .cmd mask pattern, .cmd w => w &&& mask = pattern
  | .addrByte mask pattern, .addrByte b => b &&& mask = pattern
  | .step mask pattern, .step c => c &&& mask = pattern
  | .cmd _ _, .addrByte _ | .cmd _ _, .step _ | .addrByte _ _, .cmd _ | .addrByte _ _, .step _
  | .step _ _, .cmd _ | .step _ _, .addrByte _ => False

/-- The opcode table's row of each instruction. -/
def row : Instr → Row
  | .wr _ _ _ => .cmd 0xFF000001#32 0x00000000#32
  | .wrReserved _ _ _ _ => .cmd 0x00000001#32 0x00000000#32
  | .rd0 _ _ => .cmd 0xFFFF0001#32 0x00000001#32
  | .rd1 _ _ => .cmd 0xFFFF0001#32 0x00010001#32
  | .rd2 _ _ => .cmd 0xFFFF0001#32 0x00020001#32
  | .rdn _ _ _ => .cmd 0x00000001#32 0x00000001#32
  | .slaW _ => .addrByte 0x01#8 0x00#8
  | .slaR _ => .addrByte 0x01#8 0x01#8
  | .idle => .step 0x3F#6 0x00#6
  | .p1WaitIdle => .step 0x3F#6 0x01#6
  | .p2Start => .step 0x3F#6 0x02#6
  | .p2WaitSb => .step 0x3F#6 0x03#6
  | .p3AddrW => .step 0x3F#6 0x04#6
  | .p3WaitAddr => .step 0x3F#6 0x05#6
  | .p3WaitTra => .step 0x3F#6 0x06#6
  | .p4WaitTxe => .step 0x3F#6 0x07#6
  | .p4Reg => .step 0x3F#6 0x08#6
  | .p5WaitBtf => .step 0x3F#6 0x09#6
  | .w5Value => .step 0x3F#6 0x0A#6
  | .w6WaitBtf => .step 0x3F#6 0x0B#6
  | .w6Stop => .step 0x3F#6 0x0C#6
  | .w7WaitEnd => .step 0x3F#6 0x0D#6
  | .r0AckSet => .step 0x3F#6 0x0E#6
  | .r0PosClr => .step 0x3F#6 0x0F#6
  | .r1Restart => .step 0x3F#6 0x10#6
  | .r1WaitSb => .step 0x3F#6 0x11#6
  | .r2AddrR => .step 0x3F#6 0x12#6
  | .r2WaitAddr => .step 0x3F#6 0x13#6
  | .s1AckClr => .step 0x3F#6 0x14#6
  | .s1AddrClr => .step 0x3F#6 0x15#6
  | .s1Stop => .step 0x3F#6 0x16#6
  | .s1WaitRxne => .step 0x3F#6 0x17#6
  | .s1Read => .step 0x3F#6 0x18#6
  | .s2PosSet => .step 0x3F#6 0x19#6
  | .s2AddrClr => .step 0x3F#6 0x1A#6
  | .s2AckClr => .step 0x3F#6 0x1B#6
  | .s2WaitBtf => .step 0x3F#6 0x1C#6
  | .s2Stop => .step 0x3F#6 0x1D#6
  | .s2Read0 => .step 0x3F#6 0x1E#6
  | .s2Read1 => .step 0x3F#6 0x1F#6
  | .snAddrClr => .step 0x3F#6 0x20#6
  | .snStreamWait => .step 0x3F#6 0x21#6
  | .snStreamRead => .step 0x3F#6 0x22#6
  | .snTailWaitBtf => .step 0x3F#6 0x23#6
  | .snTailAckClr => .step 0x3F#6 0x24#6
  | .snTailReadA => .step 0x3F#6 0x25#6
  | .snTailStop => .step 0x3F#6 0x26#6
  | .snTailReadB => .step 0x3F#6 0x27#6
  | .snTailWaitIdle => .step 0x3F#6 0x28#6
  | .snTailWaitRxne => .step 0x3F#6 0x29#6
  | .snTailReadC => .step 0x3F#6 0x2A#6

/-- The encoded word of a well-formed instruction falls under its row. -/
def Statement (i : Instr) : Prop := i.wf = true → (row i).covers (encode i)

/-- The two bytes of a write word that its row fixes: the reserved byte and the direction bit. -/
theorem write_masked (a : SlaveAddr) (r v : Byte) : encodeWrite a r v 0 &&& 0xFF000001#32 = 0#32 := by
  apply BitVec.eq_of_getLsbD_eq
  intro i hi
  simp only [encodeWrite, BitVec.getLsbD_and, BitVec.getLsbD_append]
  interval_cases i <;> simp

/-- The direction bit of a write word. -/
theorem write_dir (a : SlaveAddr) (r v x : Byte) : encodeWrite a r v x &&& 0x00000001#32 = 0#32 := by
  apply BitVec.eq_of_getLsbD_eq
  intro i hi
  simp only [encodeWrite, BitVec.getLsbD_and, BitVec.getLsbD_append]
  interval_cases i <;> simp

/-- The length and the direction bit of a read word. -/
theorem read_masked (a : SlaveAddr) (r : Byte) (n : LengthField) :
    encodeRead a r n &&& 0xFFFF0001#32 = n ++ 1#16 := by
  apply BitVec.eq_of_getLsbD_eq
  intro i hi
  simp only [encodeRead, BitVec.getLsbD_and, BitVec.getLsbD_append]
  interval_cases i <;> simp

/-- The direction bit of a read word. -/
theorem read_dir (a : SlaveAddr) (r : Byte) (n : LengthField) : encodeRead a r n &&& 0x00000001#32 = 1#32 := by
  apply BitVec.eq_of_getLsbD_eq
  intro i hi
  simp only [encodeRead, BitVec.getLsbD_and, BitVec.getLsbD_append]
  interval_cases i <;> simp

theorem wr (slave : SlaveAddr) (reg value : Byte) : Statement (.wr slave reg value) :=
  fun _ => write_masked slave reg value
theorem wrReserved (slave : SlaveAddr) (reg value reserved : Byte) : Statement (.wrReserved slave reg value reserved) :=
  fun _ => write_dir slave reg value reserved
theorem rd0 (slave : SlaveAddr) (reg : Byte) : Statement (.rd0 slave reg) := fun _ => read_masked slave reg 0
theorem rd1 (slave : SlaveAddr) (reg : Byte) : Statement (.rd1 slave reg) := fun _ => read_masked slave reg 1
theorem rd2 (slave : SlaveAddr) (reg : Byte) : Statement (.rd2 slave reg) := fun _ => read_masked slave reg 2
theorem rdn (slave : SlaveAddr) (reg : Byte) (length : LengthField) : Statement (.rdn slave reg length) :=
  fun _ => read_dir slave reg length
/-- The direction bit of an address byte. -/
theorem address_dir : ∀ slave : SlaveAddr, addressByte slave 0 &&& 0x01#8 = 0x00#8 ∧ addressByte slave 1 &&& 0x01#8 = 0x01#8 := by
  decide

theorem slaW (slave : SlaveAddr) : Statement (.slaW slave) := fun _ => (address_dir slave).1
theorem slaR (slave : SlaveAddr) : Statement (.slaR slave) := fun _ => (address_dir slave).2
theorem idle : Statement .idle := fun _ => rfl
theorem p1WaitIdle : Statement .p1WaitIdle := fun _ => rfl
theorem p2Start : Statement .p2Start := fun _ => rfl
theorem p2WaitSb : Statement .p2WaitSb := fun _ => rfl
theorem p3AddrW : Statement .p3AddrW := fun _ => rfl
theorem p3WaitAddr : Statement .p3WaitAddr := fun _ => rfl
theorem p3WaitTra : Statement .p3WaitTra := fun _ => rfl
theorem p4WaitTxe : Statement .p4WaitTxe := fun _ => rfl
theorem p4Reg : Statement .p4Reg := fun _ => rfl
theorem p5WaitBtf : Statement .p5WaitBtf := fun _ => rfl
theorem w5Value : Statement .w5Value := fun _ => rfl
theorem w6WaitBtf : Statement .w6WaitBtf := fun _ => rfl
theorem w6Stop : Statement .w6Stop := fun _ => rfl
theorem w7WaitEnd : Statement .w7WaitEnd := fun _ => rfl
theorem r0AckSet : Statement .r0AckSet := fun _ => rfl
theorem r0PosClr : Statement .r0PosClr := fun _ => rfl
theorem r1Restart : Statement .r1Restart := fun _ => rfl
theorem r1WaitSb : Statement .r1WaitSb := fun _ => rfl
theorem r2AddrR : Statement .r2AddrR := fun _ => rfl
theorem r2WaitAddr : Statement .r2WaitAddr := fun _ => rfl
theorem s1AckClr : Statement .s1AckClr := fun _ => rfl
theorem s1AddrClr : Statement .s1AddrClr := fun _ => rfl
theorem s1Stop : Statement .s1Stop := fun _ => rfl
theorem s1WaitRxne : Statement .s1WaitRxne := fun _ => rfl
theorem s1Read : Statement .s1Read := fun _ => rfl
theorem s2PosSet : Statement .s2PosSet := fun _ => rfl
theorem s2AddrClr : Statement .s2AddrClr := fun _ => rfl
theorem s2AckClr : Statement .s2AckClr := fun _ => rfl
theorem s2WaitBtf : Statement .s2WaitBtf := fun _ => rfl
theorem s2Stop : Statement .s2Stop := fun _ => rfl
theorem s2Read0 : Statement .s2Read0 := fun _ => rfl
theorem s2Read1 : Statement .s2Read1 := fun _ => rfl
theorem snAddrClr : Statement .snAddrClr := fun _ => rfl
theorem snStreamWait : Statement .snStreamWait := fun _ => rfl
theorem snStreamRead : Statement .snStreamRead := fun _ => rfl
theorem snTailWaitBtf : Statement .snTailWaitBtf := fun _ => rfl
theorem snTailAckClr : Statement .snTailAckClr := fun _ => rfl
theorem snTailReadA : Statement .snTailReadA := fun _ => rfl
theorem snTailStop : Statement .snTailStop := fun _ => rfl
theorem snTailReadB : Statement .snTailReadB := fun _ => rfl
theorem snTailWaitIdle : Statement .snTailWaitIdle := fun _ => rfl
theorem snTailWaitRxne : Statement .snTailWaitRxne := fun _ => rfl
theorem snTailReadC : Statement .snTailReadC := fun _ => rfl

end Sys2Proof.Laws.TableRow
end

