-- ==== Sys2Proof/Laws/Turns.lean ====
section
/-! SUPPORT. What one turn can do: the inversion of the engine's step, of the issue and of `step`. -/

namespace Sys2Proof.Machine

/-- The engine's step at any state answers a next state; `IDLE` changes nothing (R90). -/
theorem engineTurn_idle {s : State} (h : s.step = .idle) : s.engineTurn = .next s := by
  simp [State.engineTurn, h, Step.instr, exec, execIdle]

/-- The conforming turn is the engine's step, at the state with the byte a data read finds, and then changes of the
environment's fields only. -/
theorem conformingTurn_cases {s t : State} (h : s.conformingTurn = .next t) :
    ∃ u fl st sp d b, s.busPresent.engineTurn = .next u ∧ t = u.withEnv fl st sp d b ∧
      (Memory.wf u.bus.mem → Memory.wf b.mem) := by
  unfold State.conformingTurn at h
  split at h
  · rename_i u hu
    obtain ⟨fl, st, sp, d, b, hb, hw⟩ := react_all_cases (u.trace.drop s.trace.length) u
    exact ⟨u, fl, st, sp, d, b, hu, by rw [← hb]; injection h with h; exact h.symm, hw⟩
  · cases h
  · cases h

/-- A host read that answers a next state changes nothing (R217). -/
theorem readBufTurn_next {s t : State} {i : Nat} (h : s.readBufTurn i = .next t) : t = s := by
  unfold State.readBufTurn at h
  split at h
  · injection h with h; exact h.symm
  · cases h

/-- A host read of `status` changes nothing (R16). -/
theorem readStatusTurn_next {s t : State} (h : s.readStatusTurn = .next t) : t = s := by
  injection h with h; exact h.symm

/-- A platform write that answers a next state was made at `IDLE` and wrote the two control bits (R232). -/
theorem platformTurn_next {s t : State} {a p : Bool} (h : s.platformTurn a p = .next t) :
    s.step = .idle ∧ t = { s with ackEnable := a, pos := p } := by
  unfold State.platformTurn at h
  split at h
  · injection h with h; exact ⟨‹_›, h.symm⟩
  · cases h

/-- Everything a turn can do that answers a next state: `s'` is `s` with the turn taken from the script. -/
theorem step_cases {s t : State} (h : step s = .next t) :
    (s.turns = [] ∧ s.envFree.engineTurn = .next t) ∨
    ∃ turn rest s', s.turns = turn :: rest ∧ s' = { s with turns := rest } ∧
      match turn with
      | .engine => s'.engineTurn = .next t
      | .conforming => s'.conformingTurn = .next t
      | .env m => t = s'.envMove m
      | .issue w => s'.issueTurn w = .next t
      | .reset => t = s'.resetEvent
      | .platform a p => s.step = .idle ∧ t = { s' with ackEnable := a, pos := p }
      | .readBuf _ => t = s'
      | .readStatus => t = s' := by
  unfold step State.nextTurn at h
  split at h
  · rename_i turn rest hturns
    refine .inr ⟨turn, rest, _, hturns, rfl, ?_⟩
    cases turn with
    | engine => exact h
    | conforming => exact h
    | env m => injection h with h; exact h.symm
    | issue w => exact h
    | reset => injection h with h; exact h.symm
    | platform a p => exact platformTurn_next h
    | readBuf i => exact readBufTurn_next h
    | readStatus => exact readStatusTurn_next h
  · rename_i hturns
    exact .inl ⟨hturns, h⟩

/-- What an issued word can do: at `IDLE` it starts a write, starts a read of `n >= 1` bytes or is rejected; at any
other state it sets the mark (R86, R95, R207, R215). -/
theorem issueTurn_cases (s : State) (w : CmdWord) :
    (s.step ≠ .idle ∧ s.issueTurn w = .next { s with fault := true }) ∨
    (s.step = .idle ∧
      ((∃ a r v, s.issueTurn w = .next (s.beginWrite a r v)) ∨
       (∃ a r n, 1 ≤ n ∧ s.issueTurn w = .next (s.beginRead a r n)) ∨
       s.issueTurn w = .next (s.raise .reject))) := by
  by_cases hs : s.step = .idle
  · refine .inr ⟨hs, ?_⟩
    unfold State.issueTurn decodeCmd
    split
    · split
      · exact .inr (.inr (by simp [exec, execWrReserved, issued_idle s hs]))
      · exact .inl ⟨_, _, _, by simp [exec, execWr, issued_idle s hs]; rfl⟩
    · split
      · exact .inr (.inr (by simp [exec, execRd0, issued_idle s hs]))
      · split
        · exact .inr (.inl ⟨_, _, 1, le_rfl, by simp [exec, execRd1, issued_idle s hs]; rfl⟩)
        · split
          · exact .inr (.inl ⟨_, _, 2, by omega, by simp [exec, execRd2, issued_idle s hs]; rfl⟩)
          · rename_i h0 _ _
            refine .inr (.inl ⟨CmdWord.slave w, CmdWord.reg w, (CmdWord.length w).toNat, ?_, ?_⟩)
            · have : (CmdWord.length w).toNat ≠ 0 := fun h => h0 (BitVec.eq_of_toNat_eq (by simpa using h))
              omega
            · simp [exec, execRdn, issued_idle s hs]
  · refine .inl ⟨hs, ?_⟩
    unfold State.issueTurn decodeCmd
    repeat' split
    all_goals simp [exec, execWr, execWrReserved, execRd0, execRd1, execRd2, execRdn, issued_busy s hs]

end Sys2Proof.Machine
end

