-- ==== Sys2Proof/Tests/Slice0.lean ====
section
/-! SUPPORT. The model's own tests: the WellFormed smoke, words written out from the spec's encodings, one-step tests with
results from spec/95_test_vectors.md and the rules, and a witness for the hypotheses of every statement. -/

namespace Sys2Proof.Tests

open Sys2Proof.Machine

/-! ### WellFormed -/

theorem test_wf_refuses_write_without_reserved_bits : (Instr.wrReserved 0x1D 0x2A 0x19 0).wf = false := by decide
theorem test_wf_accepts_write_with_reserved_bit :
    (Instr.wrReserved 0x1D 0x2A 0x19 0x80).wf = true := by decide
theorem test_wf_refuses_short_burst :
    (Instr.rdn 0x1D 0x01 0).wf = false ∧ (Instr.rdn 0x1D 0x01 1).wf = false ∧ (Instr.rdn 0x1D 0x01 2).wf = false := by
  decide
theorem test_wf_accepts_long_burst :
    (Instr.rdn 0x1D 0x01 3).wf = true ∧ (Instr.rdn 0x1D 0x01 0xFFFF).wf = true := by decide

/-! ### Words written out from the encodings -/

/-- R71 bit by bit, fields from the top: reserved or LENGTH, VALUE, REG, SLAVE, DIR (V7a, V7d, V8, V7f, V7g, V7i). -/
theorem test_decode_cmd_words :
    decode (.cmd 0b00000000000110010010101000111010#32) = .ok (.wr 0x1D 0x2A 0x19) ∧
    decode (.cmd 0b00000001000110010010101000111010#32) = .ok (.wrReserved 0x1D 0x2A 0x19 0x01) ∧
    decode (.cmd 0b00000000000000000000000100111011#32) = .ok (.rd0 0x1D 0x01) ∧
    decode (.cmd 0b00000000000000010010101000111011#32) = .ok (.rd1 0x1D 0x2A) ∧
    decode (.cmd 0b00000000000000100000000100111011#32) = .ok (.rd2 0x1D 0x01) ∧
    decode (.cmd 0b00000000000001100000000100111011#32) = .ok (.rdn 0x1D 0x01 6) := by decide

/-- V7b, V7c, V7e, V7h, V7j, V7k, V7l, V9. -/
theorem test_decode_cmd_corners :
    decode (.cmd 0x00000000#32) = .ok (.wr 0 0 0) ∧
    decode (.cmd 0x00FFFFFE#32) = .ok (.wr 0x7F 0xFF 0xFF) ∧
    decode (.cmd 0xFF000000#32) = .ok (.wrReserved 0 0 0 0xFF) ∧
    decode (.cmd 0x0003013B#32) = .ok (.rdn 0x1D 0x01 3) ∧
    decode (.cmd 0x0100013B#32) = .ok (.rdn 0x1D 0x01 256) ∧
    decode (.cmd 0xFFFFFFFF#32) = .ok (.rdn 0x7F 0xFF 65535) ∧
    decode (.cmd 0x00010001#32) = .ok (.rd1 0 0) ∧
    decode (.cmd 0x00000001#32) = .ok (.rd0 0 0) := by decide

/-- The same words from the encoder (R84). -/
theorem test_encode_cmd_words :
    encode (.wr 0x1D 0x2A 0x19) = .cmd 0x00192A3A#32 ∧ encode (.rdn 0x1D 0x01 6) = .cmd 0x0006013B#32 := by decide

/-- V1 to V6. -/
theorem test_decode_address_bytes :
    decode (.addrByte 0b00111010#8) = .ok (.slaW 0b0011101#7) ∧
    decode (.addrByte 0b00111011#8) = .ok (.slaR 0b0011101#7) ∧
    decode (.addrByte 0x00#8) = .ok (.slaW 0) ∧ decode (.addrByte 0x81#8) = .ok (.slaR 0x40) ∧
    decode (.addrByte 0xAA#8) = .ok (.slaW 0x55) ∧ decode (.addrByte 0xFF#8) = .ok (.slaR 0x7F) := by decide

/-- The six-bit codes of R81, prefix. -/
theorem test_decode_codes_prefix :
    decode (.step 0b000000#6) = .ok .idle ∧
    decode (.step 0b000001#6) = .ok .p1WaitIdle ∧
    decode (.step 0b000010#6) = .ok .p2Start ∧
    decode (.step 0b000011#6) = .ok .p2WaitSb ∧
    decode (.step 0b000100#6) = .ok .p3AddrW ∧
    decode (.step 0b000101#6) = .ok .p3WaitAddr ∧
    decode (.step 0b000110#6) = .ok .p3WaitTra ∧
    decode (.step 0b000111#6) = .ok .p4WaitTxe ∧
    decode (.step 0b001000#6) = .ok .p4Reg ∧
    decode (.step 0b001001#6) = .ok .p5WaitBtf := by decide

/-- The six-bit codes of R81, write tail. -/
theorem test_decode_codes_write_tail :
    decode (.step 0b001010#6) = .ok .w5Value ∧
    decode (.step 0b001011#6) = .ok .w6WaitBtf ∧
    decode (.step 0b001100#6) = .ok .w6Stop ∧
    decode (.step 0b001101#6) = .ok .w7WaitEnd := by decide

/-- The six-bit codes of R81, read open. -/
theorem test_decode_codes_read_open :
    decode (.step 0b001110#6) = .ok .r0AckSet ∧
    decode (.step 0b001111#6) = .ok .r0PosClr ∧
    decode (.step 0b010000#6) = .ok .r1Restart ∧
    decode (.step 0b010001#6) = .ok .r1WaitSb ∧
    decode (.step 0b010010#6) = .ok .r2AddrR ∧
    decode (.step 0b010011#6) = .ok .r2WaitAddr := by decide

/-- The six-bit codes of R81, rd1. -/
theorem test_decode_codes_rd1 :
    decode (.step 0b010100#6) = .ok .s1AckClr ∧
    decode (.step 0b010101#6) = .ok .s1AddrClr ∧
    decode (.step 0b010110#6) = .ok .s1Stop ∧
    decode (.step 0b010111#6) = .ok .s1WaitRxne ∧
    decode (.step 0b011000#6) = .ok .s1Read := by decide

/-- The six-bit codes of R81, rd2. -/
theorem test_decode_codes_rd2 :
    decode (.step 0b011001#6) = .ok .s2PosSet ∧
    decode (.step 0b011010#6) = .ok .s2AddrClr ∧
    decode (.step 0b011011#6) = .ok .s2AckClr ∧
    decode (.step 0b011100#6) = .ok .s2WaitBtf ∧
    decode (.step 0b011101#6) = .ok .s2Stop ∧
    decode (.step 0b011110#6) = .ok .s2Read0 ∧
    decode (.step 0b011111#6) = .ok .s2Read1 := by decide

/-- The six-bit codes of R81, rdn. -/
theorem test_decode_codes_rdn :
    decode (.step 0b100000#6) = .ok .snAddrClr ∧
    decode (.step 0b100001#6) = .ok .snStreamWait ∧
    decode (.step 0b100010#6) = .ok .snStreamRead ∧
    decode (.step 0b100011#6) = .ok .snTailWaitBtf ∧
    decode (.step 0b100100#6) = .ok .snTailAckClr ∧
    decode (.step 0b100101#6) = .ok .snTailReadA ∧
    decode (.step 0b100110#6) = .ok .snTailStop ∧
    decode (.step 0b100111#6) = .ok .snTailReadB ∧
    decode (.step 0b101000#6) = .ok .snTailWaitIdle ∧
    decode (.step 0b101001#6) = .ok .snTailWaitRxne ∧
    decode (.step 0b101010#6) = .ok .snTailReadC := by decide

/-- Codes 43 and 63 name no state (R81). -/
theorem test_decode_unused_codes :
    decode (.step 0b101011#6) = .error (.unusedStepCode 43) ∧ decode (.step 0b111111#6) = .error (.unusedStepCode 63) := by
  decide

/-- The opcode table's numbering (log 12): a 32-bit word, a state code and an address byte. -/
theorem test_table_words :
    decodeTableWord 32 0x00192A3A = some (.wr 0x1D 0x2A 0x19) ∧ decodeTableWord 8 0x2A = some .snTailReadC ∧
    decodeTableWord 8 0x3A = some (.slaW 0x1D) ∧ decodeTableWord 8 0x3B = some (.slaR 0x1D) := by decide

/-! ### Small states -/

/-- The command of V10 with the length of V27, so that every state has the operand it reads. -/
def sampleCommand (dir : Dir) (length : Nat) : Command := ⟨dir, 0x1D, 0x2A, 0x19, length⟩

/-- The flags every wait wants, `start_sent` set and `busy` clear; with `wanted = false` the opposite. -/
def flagsFor (wanted : Bool) : Flags := ⟨!wanted, wanted, wanted, wanted, wanted, wanted, wanted, wanted⟩

/-- The engine in a sequencer state, running a command. -/
def inState (n : Step) (dir : Dir) (length : Nat) (wanted : Bool) : State :=
  { State.reset with
    step := n, cmd := sampleCommand dir length, buf := List.replicate length .empty, flags := flagsFor wanted, data := 0xEE
    idx := 1 }

/-- The same with a poll budget. -/
def budgeted (n : Nat) (s : State) : State := { s with params := { s.params with pollBudget := some n } }

/-- The last event and the next sequencer state after one engine step. -/
def stepOf (s : State) : Option (Option Event × Step) := (nextOf s.engineTurn).map fun t => (t.trace.getLast?, t.step)

/-! ### One step of each sequencer state, from the tables of R81 and R108 -/

/-- V10, the emit states of a write. -/
theorem test_emit_write :
    ([Step.p2Start, .p3AddrW, .p4Reg, .w5Value, .w6Stop].map fun n => stepOf (inState n .write 0 true)) =
      [some (some (.bitSet .start), .p2WaitSb), some (some (.dataWrite 0x3A), .p3WaitAddr),
        some (some (.dataWrite 0x2A), .p5WaitBtf), some (some (.dataWrite 0x19), .w6WaitBtf),
        some (some (.bitSet .stop), .w7WaitEnd)] := by decide

/-- V10, the poll states of a write on the wanted sample; the last completes. -/
theorem test_poll_write :
    ([Step.p1WaitIdle, .p2WaitSb, .p3WaitAddr, .p3WaitTra, .p4WaitTxe, .p5WaitBtf, .w6WaitBtf].map fun n =>
      stepOf (inState n .write 0 true)) =
      [some (some (.flagRead .busy false), .p2Start), some (some (.flagRead .startSent true), .p3AddrW),
        some (some (.flagRead .addrMatched true), .p3WaitTra), some (some (.flagRead .txDir true), .p4WaitTxe),
        some (some (.flagRead .txEmpty true), .p4Reg), some (some (.flagRead .btf true), .w5Value),
        some (some (.flagRead .btf true), .w6Stop)] ∧
    stepOf (inState .w7WaitEnd .write 0 false) = some (some (.flagRead .startSent false), .idle) := by decide

/-- V11: under `BusIdle` the last wait polls `busy`. -/
theorem test_final_wait_bus_idle :
    stepOf { inState .w7WaitEnd .write 0 true with params := ⟨none, .busIdle, true⟩ } =
      some (some (.flagRead .busy false), .idle) := by decide

/-- V20, the read phase up to dispatch; V21, without `READ_INIT`. -/
theorem test_read_open :
    ([Step.p5WaitBtf, .r0AckSet, .r0PosClr, .r1Restart, .r1WaitSb, .r2AddrR, .r2WaitAddr].map fun n =>
      stepOf (inState n .read 1 true)) =
      [some (some (.flagRead .btf true), .r0AckSet), some (some (.bitSet .ackEnable), .r0PosClr),
        some (some (.bitClear .pos), .r1Restart), some (some (.bitSet .start), .r1WaitSb),
        some (some (.flagRead .startSent true), .r2AddrR), some (some (.dataWrite 0x3B), .r2WaitAddr),
        some (some (.flagRead .addrMatched true), .s1AckClr)] ∧
    stepOf { inState .p5WaitBtf .read 1 true with params := ⟨none, .startSentClear, false⟩ } =
      some (some (.flagRead .btf true), .r1Restart) := by decide

/-- V20, the path RD1. -/
theorem test_rd1_path :
    ([Step.s1AckClr, .s1AddrClr, .s1Stop, .s1WaitRxne, .s1Read].map fun n => stepOf (inState n .read 1 true)) =
      [some (some (.bitClear .ackEnable), .s1AddrClr), some (some .addrClear, .s1Stop),
        some (some (.bitSet .stop), .s1WaitRxne), some (some (.flagRead .rxNotEmpty true), .s1Read),
        some (some (.dataRead 0xEE), .idle)] := by decide

/-- V23, dispatch to RD2 and its path. -/
theorem test_rd2_path :
    ([Step.r2WaitAddr, .s2PosSet, .s2AddrClr, .s2AckClr, .s2WaitBtf, .s2Stop, .s2Read0, .s2Read1].map fun n =>
      stepOf (inState n .read 2 true)) =
      [some (some (.flagRead .addrMatched true), .s2PosSet), some (some (.bitSet .pos), .s2AddrClr),
        some (some .addrClear, .s2AckClr), some (some (.bitClear .ackEnable), .s2WaitBtf),
        some (some (.flagRead .btf true), .s2Stop), some (some (.bitSet .stop), .s2Read0),
        some (some (.dataRead 0xEE), .s2Read1), some (some (.dataRead 0xEE), .idle)] := by decide

/-- V26, length 3: dispatch to RDN, nothing to stream, the tail. -/
theorem test_rdn_tail :
    ([Step.r2WaitAddr, .snAddrClr, .snTailWaitBtf, .snTailAckClr, .snTailReadA, .snTailStop, .snTailReadB,
      .snTailWaitIdle, .snTailWaitRxne, .snTailReadC].map fun n => stepOf (inState n .read 3 true)) =
      [some (some (.flagRead .addrMatched true), .snAddrClr), some (some .addrClear, .snTailWaitBtf),
        some (some (.flagRead .btf true), .snTailAckClr), some (some (.bitClear .ackEnable), .snTailReadA),
        some (some (.dataRead 0xEE), .snTailStop), some (some (.bitSet .stop), .snTailReadB),
        some (some (.dataRead 0xEE), .snTailWaitIdle), some (some (.flagRead .busy false), .snTailWaitRxne),
        some (some (.flagRead .rxNotEmpty true), .snTailReadC), some (some (.dataRead 0xEE), .idle)] := by decide

/-- V27 and R179: the loop goes on or leaves by the NEW index (here 2, in lengths 6, 5 and 4). -/
theorem test_rdn_stream :
    stepOf (inState .snAddrClr .read 4 true) = some (some .addrClear, .snStreamWait) ∧
    stepOf (inState .snStreamWait .read 6 true) = some (some (.flagRead .btf true), .snStreamRead) ∧
    ([6, 5, 4].map fun n => stepOf (inState .snStreamRead .read n true)) =
      [some (some (.dataRead 0xEE), .snStreamWait), some (some (.dataRead 0xEE), .snTailWaitBtf),
        some (some (.dataRead 0xEE), .snTailWaitBtf)] := by decide

/-- Each data read fills its own cell (R165, R173, R174, R179, R182, R184, R187). -/
theorem test_read_cells :
    ([(Step.s1Read, 1), (.s2Read0, 2), (.s2Read1, 2), (.snStreamRead, 6), (.snTailReadA, 6), (.snTailReadB, 6),
      (.snTailReadC, 6)].map fun x => (nextOf (inState x.1 .read x.2 true).engineTurn).map fun t => t.buf.idxOf (.byte 0xEE))
      = [some 0, some 0, some 1, some 1, some 3, some 4, some 5] := by decide

/-- V12: a failed sample stays and counts. -/
theorem test_wait_stays :
    (nextOf (inState .p1WaitIdle .write 0 false).engineTurn).map (fun t => (t.step, t.polls, t.done)) =
      some (.p1WaitIdle, 1, false) := by decide

/-- V16 and V17: the sample that spends the budget aborts with the class of its flag; one failed sample before, it
stays (V18). -/
theorem test_budget_aborts :
    (nextOf (budgeted 1 (inState .p1WaitIdle .write 0 false)).engineTurn).map (fun t => (t.step, t.status, t.done)) =
      some (.idle, .busBusyTimeout, true) ∧
    (nextOf (budgeted 3 { inState .p3WaitAddr .write 0 false with polls := 2 }).engineTurn).map
      (fun t => (t.step, t.status, t.polls)) = some (.idle, .noAcknowledge, 0) ∧
    (nextOf (budgeted 3 { inState .p3WaitAddr .write 0 false with polls := 1 }).engineTurn).map
      (fun t => (t.step, t.status, t.polls)) = some (.p3WaitAddr, .noResult, 2) ∧
    (nextOf (budgeted 1 (inState .s2WaitBtf .read 2 false)).engineTurn).map (fun t => (t.status, t.buf)) =
      some (.transferTimeout, [.unspecified, .unspecified]) := by decide

/-! ### The host's words, the address bytes, reset -/

/-- V10: the state after the issue of the word. -/
theorem test_issue_write :
    (nextOf (exec (.wr 0x1D 0x2A 0x19) { State.reset with done := true, status := .ok })).map
      (fun t => (t.step, t.done, t.status, t.cmd)) = some (.p1WaitIdle, false, .noResult, ⟨.write, 0x1D, 0x2A, 0x19, 0⟩) := by
  decide

/-- V20, V23, V26: the buffer after the issue of each read. -/
theorem test_issue_read :
    ([Instr.rd1 0x1D 0x2A, .rd2 0x1D 0x01, .rdn 0x1D 0x01 3].map fun i =>
      (nextOf (exec i State.reset)).map fun t => (t.step, t.cmd.length, t.buf)) =
      [some (.p1WaitIdle, 1, [.empty]), some (.p1WaitIdle, 2, [.empty, .empty]),
        some (.p1WaitIdle, 3, [.empty, .empty, .empty])] := by decide

/-- R207: a rejected word writes `status` and `done` only. -/
theorem test_issue_rejected :
    ([Instr.rd0 0x1D 0x01, .wrReserved 0x1D 0x2A 0x19 0x01].map fun i =>
      (nextOf (exec i State.reset)).map fun t => (t.step, t.status, t.done, t.trace)) =
      [some (.idle, .rejected, true, []), some (.idle, .rejected, true, [])] := by decide

/-- R215: a word issued while a command runs sets the mark. -/
theorem test_issue_while_running :
    (nextOf (exec (.wr 0x1D 0x2A 0x19) (inState .p4Reg .read 6 true))).map (fun t => (t.fault, t.step, t.cmd.dir)) =
      some (true, .p4Reg, .read) := by decide

/-- R98 and R99, their worked examples. -/
theorem test_address_bytes_written :
    ([Instr.slaW 0x1D, .slaR 0x1D].map fun i => (nextOf (exec i State.reset)).map fun t => (t.data, t.trace)) =
      [some (0x3A, [.dataWrite 0x3A]), some (0x3B, [.dataWrite 0x3B])] := by decide

/-- R90: at `IDLE` nothing happens. -/
theorem test_idle_stays : exec .idle State.reset = .next State.reset := rfl

/-- R230: reset during a command leaves the controller's fields as they are. -/
theorem test_reset_event :
    let s := { inState .snTailReadA .read 6 true with fault := true, stop := true, pos := true }
    (s.resetEvent.step, s.resetEvent.buf, s.resetEvent.fault, s.resetEvent.stop, s.resetEvent.pos, s.resetEvent.flags) =
      (Step.idle, ([] : List BufCell), false, true, true, flagsFor true) := by decide

/-- T6, T10: the UI table. -/
theorem test_ui_table :
    uiNext .idle .a = (.soldering, .none) ∧ uiNext .idle .b = (.thermometer, .none) ∧
    uiNext .soldering .ab = (.idle, .none) ∧ uiNext .soldering .a = (.temperatureControl, .none) ∧
    uiNext .soldering .b = (.temperatureControl, .none) ∧ uiNext .sleep .none = (.sleep, .none) ∧
    uiNext (.config 2) .a = (.idle, .none) := by decide

/-- P1: the three axes of the burst. -/
theorem test_axis_samples :
    axisSample 0x12 0x34 = 1165 ∧ axisSample 0xFF 0xFC = -1 ∧ axisSample 0x80 0x00 = -8192 := by decide

/-- Platform writes go through between commands only. -/
theorem test_platform_turn :
    (nextOf (State.reset.platformTurn true true)).map (fun t => (t.ackEnable, t.pos)) = some (true, true) ∧
    nextOf ((inState .p4Reg .read 6 true).platformTurn true true) = none := by decide

/-! ### Witnesses: the hypotheses of each statement are met, each clause at a boundary -/

theorem wit_decodeOfEncode :
    (Instr.rdn 0x7F 0xFF 3).wf = true ∧ (Instr.rdn 0 0 0xFFFF).wf = true ∧ (Instr.wrReserved 0 0 0 1).wf = true := by
  decide
theorem wit_encodeOfDecode :
    decode (.step 42) = .ok .snTailReadC ∧ decode (.cmd 0) = .ok (.wr 0 0 0) ∧ decode (.addrByte 0xFF) = .ok (.slaR 0x7F) := by
  decide
/-- One word at the edge of each of the six clauses. -/
theorem wit_commandDecodeOrder :
    (0x01000000 % 2 = 0 ∧ 0x01000000 / 16777216 ≠ 0) ∧ (0x00FFFFFE % 2 = 0 ∧ 0x00FFFFFE / 16777216 = 0) ∧
    (0x0000FFFF % 2 = 1 ∧ 0x0000FFFF / 65536 = 0) ∧ (0x0001FFFF % 2 = 1 ∧ 0x0001FFFF / 65536 = 1) ∧
    (0x0002FFFF % 2 = 1 ∧ 0x0002FFFF / 65536 = 2) ∧ (0x00030001 % 2 = 1 ∧ 3 ≤ 0x00030001 / 65536) := by decide
theorem wit_stateCodesDecode : 43 ≤ (43#6 : StepCode).toNat ∧ 43 ≤ (63#6 : StepCode).toNat := by decide

theorem wit_writeIssueLatches : State.reset.step = .idle := rfl
theorem wit_readIssueLatches :
    (Instr.rdn 0x1D 0x01 3, 3) ∈ [(Instr.rd1 0x1D 0x01, 1), (.rd2 0x1D 0x01, 2),
      (Instr.rdn 0x1D 0x01 3, (3 : LengthField).toNat)] ∧ State.reset.step = .idle := by decide
theorem wit_illegalWordRejected :
    Instr.rd0 0x1D 0x01 ∈ [Instr.wrReserved 0x1D 0x01 0 1, .rd0 0x1D 0x01] ∧ State.reset.step = .idle := by decide
theorem wit_issueWhileRunningMarks : (inState .p1WaitIdle .write 0 true).step ≠ .idle := by decide

theorem wit_startStatesEmit : (Instr.r1Restart, Step.r1WaitSb) ∈ [(Instr.p2Start, Step.p2WaitSb), (.r1Restart, .r1WaitSb)] := by
  decide
theorem wit_stopStatesEmit :
    (Instr.snTailStop, Step.snTailReadB) ∈ [(Instr.w6Stop, Step.w7WaitEnd), (.s1Stop, .s1WaitRxne), (.s2Stop, .s2Read0),
      (.snTailStop, .snTailReadB)] := by decide
theorem wit_controlBitStatesEmit :
    (Instr.snTailAckClr, Step.snTailReadA) ∈ [(Instr.s1AckClr, Step.s1AddrClr), (.s2AckClr, .s2WaitBtf),
      (.snTailAckClr, .snTailReadA)] := by decide
theorem wit_addrClearStatesEmit :
    (Instr.s2AddrClr, Step.s2AckClr) ∈ [(Instr.s1AddrClr, Step.s1Stop), (.s2AddrClr, .s2AckClr)] := by decide
theorem wit_addressPrimitivesWrite :
    ∃ s t u : State, exec (.slaW s.cmd.slave) s = .next t ∧ exec (.slaR s.cmd.slave) s = .next u :=
  ⟨inState .p3AddrW .write 0 true, _, _, rfl, rfl⟩

/-- The three clauses of a wait that wants 1: the sample, a sample before the last of the budget, the last. -/
theorem wit_writePollsWait :
    (inState .p3WaitAddr .write 0 true).flags.get .addrMatched = true ∧
    ((inState .p3WaitAddr .write 0 false).flags.get .addrMatched = (!true) ∧
      (budgeted 2 (inState .p3WaitAddr .write 0 false)).params.pollBudget ≠ some (0 + 1)) ∧
    (budgeted 1 (inState .p3WaitAddr .write 0 false)).params.pollBudget =
      some ((inState .p3WaitAddr .write 0 false).polls + 1) := by decide
/-- The three clauses of a wait that wants 0. -/
theorem wit_readPollsWait :
    (inState .snTailWaitIdle .read 3 true).flags.get .busy = false ∧
    ((inState .snTailWaitIdle .read 3 false).flags.get .busy = (!false) ∧
      (inState .snTailWaitIdle .read 3 false).params.pollBudget ≠ some (0 + 1)) ∧
    (budgeted 1 (inState .snTailWaitIdle .read 3 false)).params.pollBudget =
      some ((inState .snTailWaitIdle .read 3 false).polls + 1) := by decide
theorem wit_selectWaitBranches :
    (inState .p5WaitBtf .read 1 true).flags.btf = true ∧
    ((inState .p5WaitBtf .read 1 false).flags.btf = false ∧
      (inState .p5WaitBtf .read 1 false).params.pollBudget ≠ some (0 + 1)) ∧
    (budgeted 1 (inState .p5WaitBtf .read 1 false)).params.pollBudget =
      some ((inState .p5WaitBtf .read 1 false).polls + 1) := by decide
theorem wit_addressWaitDispatches :
    ((inState .r2WaitAddr .read 1 true).flags.addrMatched = true ∧ 1 ≤ (inState .r2WaitAddr .read 1 true).cmd.length) ∧
    ((inState .r2WaitAddr .read 1 false).flags.addrMatched = false ∧
      (inState .r2WaitAddr .read 1 false).params.pollBudget ≠ some (0 + 1)) ∧
    (budgeted 1 (inState .r2WaitAddr .read 1 false)).params.pollBudget =
      some ((inState .r2WaitAddr .read 1 false).polls + 1) := by decide
theorem wit_finalWaitCompletes :
    (Flag.startSent, Status.transferTimeout) = (match (inState .w7WaitEnd .write 0 false).params.finalWait with
      | .startSentClear => (Flag.startSent, Status.transferTimeout)
      | .busIdle => (Flag.busy, Status.busBusyTimeout)) ∧
    (inState .w7WaitEnd .write 0 false).flags.get .startSent = false ∧
    ((inState .w7WaitEnd .write 0 true).flags.get .startSent = true ∧
      (inState .w7WaitEnd .write 0 true).params.pollBudget ≠ some (0 + 1)) ∧
    (budgeted 1 (inState .w7WaitEnd .write 0 true)).params.pollBudget =
      some ((inState .w7WaitEnd .write 0 true).polls + 1) := by decide

/-- `W6_STOP` is outside every list of the frame but its own and answers a next state; a wait that spends its budget
answers one in which every cell of `buf` is unspecified; the rows with a clause of their own answer one too. -/
theorem wit_frameOfEveryInstruction :
    (∃ t, exec .w6Stop (inState .w6Stop .write 0 true) = .next t) ∧
    (∃ t, exec .s2WaitBtf (budgeted 1 (inState .s2WaitBtf .read 2 false)) = .next t ∧ t.step = .idle ∧
      t.buf = [.unspecified, .unspecified]) ∧
    (∃ t, exec (.slaR 0x1D) (inState .r2AddrR .read 2 true) = .next t) ∧
    (∃ t, exec (.rd0 0x1D 0x01) State.reset = .next t) ∧
    (inState .p4Reg .write 0 true).step ≠ .idle ∧ ∃ t, exec (.rd1 0x1D 0x01) (inState .p4Reg .write 0 true) = .next t :=
  ⟨⟨_, rfl⟩, ⟨_, rfl, rfl, rfl⟩, ⟨_, rfl⟩, ⟨_, rfl⟩, by decide, _, rfl⟩
theorem wit_engineLeavesMemory : ∃ t, exec .w5Value (inState .w5Value .write 0 true) = .next t := ⟨_, rfl⟩
theorem wit_oneEventPerStep :
    (∃ t, exec (Step.instr .s1Read) (inState .s1Read .read 1 true) = .next t) ∧ Step.s1Read ≠ .idle ∧
    ∃ t, exec (decodeCmd 0x00192A3A) State.reset = .next t := ⟨⟨_, rfl⟩, by decide, _, rfl⟩
theorem wit_pollWritesNothing :
    pollOf Params.default .s2WaitBtf = some (.btf, true) ∧
    ∃ t, exec (Step.instr .s2WaitBtf) (inState .s2WaitBtf .read 2 true) = .next t := ⟨rfl, _, rfl⟩
/-- Both clauses, and a wait that spends its budget. -/
theorem wit_controlTransfers :
    (State.reset.step = .idle ∧ ∃ t, State.reset.engineTurn = .next t) ∧
    ((inState .snStreamRead .read 6 true).step ≠ .idle ∧ ∃ t, (inState .snStreamRead .read 6 true).engineTurn = .next t) ∧
    ∃ t, (budgeted 1 (inState .s2WaitBtf .read 2 false)).engineTurn = .next t ∧ t.step = .idle :=
  ⟨⟨rfl, _, rfl⟩, ⟨by decide, _, rfl⟩, _, rfl, rfl⟩
theorem wit_commandEndsOnlySo : ∃ t, exec (Step.instr .w7WaitEnd) (inState .w7WaitEnd .write 0 false) = .next t := ⟨_, rfl⟩
/-- Two states that differ in every flag the present state does not poll and in the data register. -/
theorem wit_answersAloneSteer :
    let s := inState .p4WaitTxe .write 0 true
    let t := { s with flags := { flagsFor false with txEmpty := true }, data := 0x11, pos := true }
    s.engineView = t.engineView ∧ s.params = t.params ∧ s.flags.get .txEmpty = t.flags.get .txEmpty ∧
      pollOf s.params s.step = some (.txEmpty, true) ∧ readsData s.step = false ∧ ∃ s', s.engineTurn = .next s' :=
  ⟨rfl, rfl, rfl, rfl, rfl, _, rfl⟩
theorem wit_faultMarkSticks :
    (∃ t, step { inState .p4Reg .write 0 true with fault := true, turns := [.engine] } = .next t) ∧
    ∃ t, step { inState .p4Reg .write 0 true with turns := [.issue 0] } = .next t ∧ t.fault = true := ⟨⟨_, rfl⟩, _, rfl, rfl⟩

/-! ### Witnesses of the invariants -/

/-- RD1 at its read: every invariant holds and a turn is pending. -/
def rd1AtRead : State := { inState .s1Read .read 1 true with turns := [.engine] }

theorem rd1AtRead_commandOk : rd1AtRead.CommandOk where
  result := ⟨⟨by decide, by decide⟩, fun _ => rfl⟩
  path := ⟨rfl, rfl⟩
  index := trivial
  buffer := by
    refine ⟨rfl, fun _ => ⟨fun _ => ⟨?_, ?_⟩, ?_⟩⟩
    · decide
    · decide
    · intro h; cases h

theorem wit_commandInvariantKept : rd1AtRead.CommandOk ∧ ∃ t, step rd1AtRead = .next t := ⟨rd1AtRead_commandOk, _, rfl⟩
theorem wit_pollCountBounded :
    (budgeted 1 rd1AtRead).BudgetOk ∧ ∃ t, step (budgeted 1 rd1AtRead) = .next t :=
  ⟨show 0 < 1 by decide, _, rfl⟩
theorem wit_controlBitsFollowRead : rd1AtRead.PolicyOk ∧ rd1AtRead.PosOk ∧ ∃ t, step rd1AtRead = .next t :=
  ⟨⟨rfl, rfl⟩, fun _ => rfl, _, rfl⟩
theorem wit_readLeavesControlBits :
    rd1AtRead.PolicyOk ∧ rd1AtRead.PosOk ∧ rd1AtRead.step ∈ [Step.s1Read, .s2Read1, .snTailReadC] :=
  ⟨⟨rfl, rfl⟩, fun _ => rfl, by decide⟩
theorem wit_memoryStaysCanonical :
    let s := { rd1AtRead with bus := { Bus.blank with mem := [(7466, 0x19)] } }
    Memory.wf s.bus.mem ∧ ∃ t, step s = .next t := ⟨by decide, _, rfl⟩

/-! ### Witnesses of the statements over a whole command -/

/-- A write just issued, on a busy bus or on an idle one. -/
def issued (busy : Bool) : State :=
  { State.reset with
    step := .p1WaitIdle, cmd := ⟨.write, 0x1D, 0x2A, 0x19, 0⟩, flags := { Flags.blank with busy := busy }
    turns := [.engine], params := ⟨some 1, .startSentClear, true⟩ }

theorem issued_commandOk (busy : Bool) : (issued busy).CommandOk where
  result := ⟨⟨by simp [issued, State.reset], by simp [issued, State.reset]⟩, fun _ => rfl⟩
  path := by intro h; cases h
  index := trivial
  buffer := ⟨rfl, by intro h; cases h⟩

theorem wit_issueStartsScript :
    State.reset.step = .idle ∧ ∃ t, exec (decodeCmd 0x00192A3A) State.reset = .next t ∧ t.step ≠ .idle :=
  ⟨rfl, _, rfl, by decide⟩
/-- Both clauses: the wait goes on, and it aborts. -/
theorem wit_runFollowsScript :
    (∀ b, (issued b).CommandOk ∧ (issued b).step ≠ .idle ∧ (issued b).OnScript [] ∧ (issued b).turns.head? ≠ some .reset) ∧
    (∃ t, step (issued false) = .next t ∧ t.step ≠ .idle) ∧
    ∃ t, step (issued true) = .next t ∧ t.step = .idle ∧ t.status ≠ .ok := by
  refine ⟨fun b => ⟨issued_commandOk b, ?_, ⟨[], rfl, rfl⟩, ?_⟩, ⟨_, rfl, ?_⟩, _, rfl, ?_, ?_⟩
  · simp [issued]
  · simp [issued]
  · decide
  · decide
  · decide
theorem wit_scriptInNumbers :
    (sampleCommand .write 0).dir = .write ∧
    (sampleCommand .read 3).dir = .read ∧ 1 ≤ (sampleCommand .read 3).length ∧
      ([0xA0, 0xA1, 0xA2] : List Byte).length = (sampleCommand .read 3).length := by decide
theorem wit_baselineHangs :
    let s := inState .p3WaitAddr .write 0 false
    s.params.pollBudget = none ∧ pollOf s.params s.step = some (.addrMatched, true) ∧
      s.flags.get .addrMatched = (!true) ∧ ∃ t, s.engineTurn = .next t := ⟨rfl, rfl, rfl, _, rfl⟩
theorem wit_budgetSpentAborts :
    let s := budgeted 3 (inState .p3WaitAddr .write 0 false)
    s.params.pollBudget = some 3 ∧ s.polls = 0 ∧ pollOf s.params s.step = some (.addrMatched, true) ∧
      s.flags.get .addrMatched = (!true) := ⟨rfl, rfl, rfl, rfl⟩

/-! ### Witnesses of the turns -/

/-- An issued word, a scripted engine turn, and no turn pending. -/
theorem wit_stepRunsDecoded :
    (({ State.reset with turns := [.issue 0x00192A3A] } : State).turns = .issue 0x00192A3A :: [] ∧
      decode (.cmd 0x00192A3A) = .ok (.wr 0x1D 0x2A 0x19)) ∧
    (rd1AtRead.turns = .engine :: [] ∧ decode (.step rd1AtRead.step.code) = .ok .s1Read) ∧
    State.reset.turns = [] ∧ decode (.step State.reset.step.code) = .ok .idle := by decide
theorem wit_resetEventEffect : ({ rd1AtRead with turns := [.reset] } : State).turns = .reset :: [] := rfl
/-- A buffer with one cell of each kind, after the result and the direction given. -/
def ended (status : Status) (dir : Dir) : State :=
  { State.reset with done := true, status := status, cmd := sampleCommand dir 3, buf := [.empty, .unspecified, .byte 0x19] }

/-- RD1 after its read: the state rd1AtRead ends in. -/
def rd1Done : State :=
  { rd1AtRead with step := .idle, done := true, status := .ok, buf := [.byte 0x19], turns := [] }

theorem rd1Done_commandOk : rd1Done.CommandOk where
  result := ⟨⟨by decide, by decide⟩, fun h => absurd rfl h⟩
  path := trivial
  index := trivial
  buffer := by
    refine ⟨rfl, fun _ => ⟨fun h => absurd rfl h, ?_⟩⟩
    decide

/-- Each clause: while a read runs; the four kinds of cell; a failure, a write and a read that ended with `OK`; a whole
read. -/
theorem wit_hostReadGuarded :
    (rd1AtRead.CommandOk ∧ rd1AtRead.done = false) ∧
    ((ended .ok .read).done = true ∧ (ended .ok .read).buf.length ≤ 3 ∧
      (ended .ok .read).buf[0]? = some .empty ∧ (ended .ok .read).buf[1]? = some .unspecified ∧
      (ended .ok .read).buf[2]? = some (.byte 0x19)) ∧
    ((ended .rejected .read).status ≠ .ok ∧ (ended .rejected .read).buf[2]? = some (.byte 0x19)) ∧
    ((ended .ok .write).status = .ok ∧ (ended .ok .write).cmd.dir = .write ∧
      (ended .ok .write).buf[2]? = some (.byte 0x19)) ∧
    rd1Done.CommandOk ∧ rd1Done.step = .idle ∧ rd1Done.status = .ok ∧ rd1Done.cmd.dir = .read ∧
      0 < rd1Done.cmd.length :=
  ⟨⟨rd1AtRead_commandOk, rfl⟩, by decide, by decide, by decide, rd1Done_commandOk, by decide⟩
theorem wit_platformOnlyBetweenCommands : State.reset.step = .idle ∧ rd1AtRead.step ≠ .idle := by decide
theorem wit_placedWordRuns :
    (22 ≤ (22#7 : SlaveAddr).toNat ∧ 22 ≤ (127#7 : SlaveAddr).toNat) ∧
    21 ≤ (21#7 : SlaveAddr).toNat ∧ 21 ≤ (127#7 : SlaveAddr).toNat := by decide

/-! ### Witnesses of the statements with the conforming fixture -/

/-- A quiet bus with one slave, whose register `0x01` holds `0x12`. -/
def quiet : State :=
  { State.reset with bus := { Bus.blank with present := [0x1D], mem := [(slaveCell 0x1D 0x01, 0x12)] } }

theorem quiet_quietWith : quiet.QuietWith 0x1D := ⟨rfl, rfl, rfl, rfl, by decide⟩

theorem wit_conformingStore :
    let s := { quiet with bus := { quiet.bus with phase := .store, ptr := 255 } }
    Memory.wf s.bus.mem ∧ s.bus.phase = .store ∧ s.bus.ptr < 256 := by decide
theorem wit_conformingWrite :
    let s := { quiet with turns := .issue (encodeWrite 0x1D 0x2A 0x19 0) :: List.replicate 13 .conforming }
    s.QuietWith 0x1D ∧ Memory.wf s.bus.mem := ⟨quiet_quietWith, by decide⟩
theorem wit_conformingReadOne :
    let s := { quiet with turns := .issue (encodeRead 0x1D 0xFF 1) :: List.replicate 21 .conforming }
    s.QuietWith 0x1D ∧ s.params = Params.default := ⟨quiet_quietWith, rfl⟩
theorem wit_conformingReadTwo :
    let s := { quiet with turns := .issue (encodeRead 0x1D 0xFE 2) :: List.replicate 24 .conforming }
    s.QuietWith 0x1D ∧ s.params = Params.default ∧ (0xFE#8).toNat + 2 ≤ 256 := ⟨quiet_quietWith, rfl, by decide⟩
theorem wit_conformingReadMany :
    let s := { quiet with turns := .issue (encodeRead 0x1D 0xFD (BitVec.ofNat 16 3)) :: List.replicate (3 * 3 + 18) .conforming }
    s.QuietWith 0x1D ∧ s.params = Params.default ∧ 3 ≤ 3 ∧ (0xFD#8).toNat + 3 ≤ 256 :=
  ⟨quiet_quietWith, rfl, by decide, by decide⟩
/-- The turns of a write and of the read of the same register. -/
def writeReadTurns : List Turn :=
  .issue (encodeWrite 0x1D 0x2A 0x19 0) ::
    (List.replicate 13 .conforming ++ .issue (encodeRead 0x1D 0x2A 1) :: List.replicate 21 .conforming)

theorem wit_writeThenReadBack :
    let s := { quiet with turns := writeReadTurns }
    s.QuietWith 0x1D ∧ Memory.wf s.bus.mem ∧ s.params = Params.default := ⟨quiet_quietWith, by decide, rfl⟩

/-! ### Witnesses around the engine -/

/-- The end of the burst of P1, and its middle axis. -/
def burstDone : State :=
  { State.reset with
    done := true, status := .ok, cmd := ⟨.read, 0x1D, 0x01, 0, 6⟩
    buf := [0x12, 0x34, 0xFF, 0xFC, 0x80, 0x00].map BufCell.byte }

theorem wit_driverWordsAndSamples :
    (burstDone.done = true ∧ burstDone.status = .ok ∧ burstDone.cmd.dir = .read ∧
      burstDone.buf = [0x12, 0x34, 0xFF, 0xFC, 0x80, 0x00].map BufCell.byte) ∧
    burstDone.accelSample .y = .ok (-1) := ⟨⟨rfl, rfl, rfl, rfl⟩, rfl⟩

/-- P1: the three axes, from the cells of `buf`. -/
theorem test_accel_axes :
    burstDone.accelSample .x = .ok 1165 ∧ burstDone.accelSample .y = .ok (-1) ∧ burstDone.accelSample .z = .ok (-8192) :=
  ⟨rfl, rfl, rfl⟩
/-- R206: no sample after a failure. -/
theorem test_accel_after_failure :
    ({ burstDone with status := .rejected } : State).accelSample .x = .error .bufAfterFailure := rfl
/-- V38: a rejection keeps the cells, which the host may then not use (R217). -/
theorem test_rejection_keeps_cells :
    (nextOf (exec (.rd0 0x1D 0x01) burstDone)).map (fun t => (t.status, t.buf == burstDone.buf, t.hostReadBuf 0 == .ok 0x12)) =
      some (.rejected, true, false) := by decide
/-- R16: `status` reads `NONE` while a command runs; R217: it is a result only while `done` is true. -/
theorem test_host_reads_status :
    (nextOf (step { rd1AtRead with turns := [.readStatus] })).map (fun t => t.hostReadStatus) = some .noResult ∧
    rd1AtRead.hostResult = none ∧ burstDone.hostResult = some .ok := by decide

/-! ### The fixture -/

/-- A burst in which the controller holds the bus with two unread bytes (R62). -/
def heldBurst : State :=
  { inState .snTailStop .read 6 true with bus := { Bus.blank with phase := .receiving, shift := some 0x34 } }

/-- R64: no byte is being received, so the STOP goes out at once; with one being received it waits; a transaction whose
address has just been acknowledged has none. -/
theorem test_stop_after_the_byte :
    heldBurst.busHeld = true ∧ heldBurst.busStopAsked.bus.wire = [.stop] ∧
    ({ heldBurst with bus := { heldBurst.bus with shift := none } } : State).busStopAsked.bus.wire = [] ∧
    ({ heldBurst with bus := { heldBurst.bus with phase := .armed, shift := none } } : State).busStopAsked.bus.wire = [.stop] := by
  decide

/-- R106, U9: with no unread byte the answer of a data read is a free value, else the byte held. -/
theorem test_data_read_without_byte :
    (inState .s1Read .read 1 false).busPresent.data = Config.noByte 0 ∧ (inState .s1Read .read 1 true).busPresent.data = 0xEE :=
  ⟨rfl, rfl⟩

end Sys2Proof.Tests
end

section
/-! SUPPORT. One engine step of every sequencer state, said once: the effect of a step that goes through (`State.fired`),
the two ways a poll state's unwanted sample ends (it stays or aborts), and what the host's words and the turns can do. -/

namespace Sys2Proof.Machine

/-! ### Where the operand-chosen successors lead (R119, R148, R177, R179) -/

theorem afterSelect_cases (p : Params) (c : Command) :
    (c.dir = .write ∧ afterSelect p c = .w5Value) ∨
    (c.dir = .read ∧ p.readInit = true ∧ afterSelect p c = .r0AckSet) ∨
    (c.dir = .read ∧ p.readInit = false ∧ afterSelect p c = .r1Restart) := by
  cases hd : c.dir <;> cases hr : p.readInit <;> simp [afterSelect, hd, hr]

theorem firstOfPath_cases (length : Nat) :
    (length = 1 ∧ firstOfPath length = .s1AckClr) ∨
    (length = 2 ∧ firstOfPath length = .s2PosSet) ∨
    (length ≠ 1 ∧ length ≠ 2 ∧ firstOfPath length = .snAddrClr) := by
  by_cases h1 : length = 1 <;> by_cases h2 : length = 2 <;> simp_all [firstOfPath]

theorem streamOrTail_cases (idx length : Nat) :
    (idx < length - 3 ∧ streamOrTail idx length = .snStreamWait) ∨
    (¬idx < length - 3 ∧ streamOrTail idx length = .snTailWaitBtf) := by
  by_cases h : idx < length - 3
  · exact .inl ⟨h, streamOrTail_stream h⟩
  · exact .inr ⟨h, streamOrTail_tail h⟩

/-! ### The engine's step -/

/-- The state after a step of `n` that goes through: an emit state's operation with its successor or its completion (R92,
R93), and a poll state whose sample shows the wanted value (R91). `exec_instr_cases` ties it to `exec`. -/
def State.fired (s : State) : Step → State
  | .idle => s
  | .p1WaitIdle => (s.log (.flagRead .busy false)).advance .p2Start
  | .p2Start => (s.bitSet .start).advance .p2WaitSb
  | .p2WaitSb => (s.log (.flagRead .startSent true)).advance .p3AddrW
  | .p3AddrW => (s.dataWrite (slaWrite s.cmd.slave)).advance .p3WaitAddr
  | .p3WaitAddr => (s.log (.flagRead .addrMatched true)).advance .p3WaitTra
  | .p3WaitTra => (s.log (.flagRead .txDir true)).advance .p4WaitTxe
  | .p4WaitTxe => (s.log (.flagRead .txEmpty true)).advance .p4Reg
  | .p4Reg => (s.dataWrite s.cmd.reg).advance .p5WaitBtf
  | .p5WaitBtf => (s.log (.flagRead .btf true)).advance (afterSelect s.params s.cmd)
  | .w5Value => (s.dataWrite s.cmd.value).advance .w6WaitBtf
  | .w6WaitBtf => (s.log (.flagRead .btf true)).advance .w6Stop
  | .w6Stop => (s.bitSet .stop).advance .w7WaitEnd
  | .w7WaitEnd => (s.log (.flagRead (finalFlag s.params.finalWait) false)).complete
  | .r0AckSet => s.sigAck.advance .r0PosClr
  | .r0PosClr => (s.bitClear .pos).advance .r1Restart
  | .r1Restart => (s.bitSet .start).advance .r1WaitSb
  | .r1WaitSb => (s.log (.flagRead .startSent true)).advance .r2AddrR
  | .r2AddrR => (s.dataWrite (slaRead s.cmd.slave)).advance .r2WaitAddr
  | .r2WaitAddr => (s.log (.flagRead .addrMatched true)).advance (firstOfPath s.cmd.length)
  | .s1AckClr => s.sigNack.advance .s1AddrClr
  | .s1AddrClr => s.addrClear.advance .s1Stop
  | .s1Stop => (s.bitSet .stop).advance .s1WaitRxne
  | .s1WaitRxne => (s.log (.flagRead .rxNotEmpty true)).advance .s1Read
  | .s1Read => (s.dataRx 0).complete
  | .s2PosSet => (s.bitSet .pos).advance .s2AddrClr
  | .s2AddrClr => s.addrClear.advance .s2AckClr
  | .s2AckClr => s.sigNack.advance .s2WaitBtf
  | .s2WaitBtf => (s.log (.flagRead .btf true)).advance .s2Stop
  | .s2Stop => (s.bitSet .stop).advance .s2Read0
  | .s2Read0 => (s.dataRx 0).advance .s2Read1
  | .s2Read1 => (s.dataRx 1).complete
  | .snAddrClr => { s.addrClear with idx := 0 }.advance (streamOrTail 0 s.cmd.length)
  | .snStreamWait => (s.log (.flagRead .btf true)).advance .snStreamRead
  | .snStreamRead => { s.dataRx s.idx with idx := s.idx + 1 }.advance (streamOrTail (s.idx + 1) s.cmd.length)
  | .snTailWaitBtf => (s.log (.flagRead .btf true)).advance .snTailAckClr
  | .snTailAckClr => s.sigNack.advance .snTailReadA
  | .snTailReadA => (s.dataRx (s.cmd.length - 3)).advance .snTailStop
  | .snTailStop => (s.bitSet .stop).advance .snTailReadB
  | .snTailReadB => (s.dataRx (s.cmd.length - 2)).advance .snTailWaitIdle
  | .snTailWaitIdle => (s.log (.flagRead .busy false)).advance .snTailWaitRxne
  | .snTailWaitRxne => (s.log (.flagRead .rxNotEmpty true)).advance .snTailReadC
  | .snTailReadC => (s.dataRx (s.cmd.length - 1)).complete

/-- The state after an unwanted sample of `f` that leaves budget: the wait stays and counts (R91, R200). -/
def State.stayed (s : State) (f : Flag) (want : Bool) : State :=
  { s.log (.flagRead f !want) with polls := s.polls + 1 }

/-- The state after an unwanted sample of `f` that spends the budget: the command aborts (R202 to R204). -/
def State.aborted (s : State) (f : Flag) (want : Bool) : State :=
  (s.log (.flagRead f !want)).raise (.abort (abortClass f))

/-- A poll state is one wait on its flag, and the wanted sample lets the step through (R91). -/
theorem exec_poll {s : State} {n : Step} {f : Flag} {want : Bool} (h : pollOf s.params n = some (f, want)) :
    ∃ k, exec n.instr s = .next (s.wait f want k) ∧ k (s.log (.flagRead f want)) = s.fired n := by
  cases n <;> simp only [pollOf, Option.some.injEq, Prod.mk.injEq, reduceCtorEq] at h <;> obtain ⟨rfl, rfl⟩ := h <;>
    exact ⟨_, rfl, rfl⟩

/-- `IDLE` and the emit states always go through (R90, R92). -/
theorem exec_emit {s : State} {n : Step} (h : pollOf s.params n = none) : exec n.instr s = .next (s.fired n) := by
  cases n <;> simp only [pollOf, reduceCtorEq] at h <;> rfl

/-- Everything one step of a sequencer state can do (R91, R92): it goes through, or a poll state's unwanted sample
stays, or it spends the budget and aborts. -/
theorem exec_instr_cases {n : Step} {s t : State} (h : exec n.instr s = .next t) :
    t = s.fired n ∨
    ∃ f want, pollOf s.params n = some (f, want) ∧ s.flags.get f = (!want) ∧
      ((s.params.pollBudget ≠ some (s.polls + 1) ∧ t = s.stayed f want) ∨
       (s.params.pollBudget = some (s.polls + 1) ∧ t = s.aborted f want)) := by
  rcases hp : pollOf s.params n with _ | ⟨f, want⟩
  · rw [exec_emit hp] at h
    injection h with h
    exact .inl h.symm
  · obtain ⟨k, hk, hfired⟩ := exec_poll hp
    rw [hk] at h
    injection h with h
    rcases wait_cases s f want k with ⟨-, hw⟩ | ⟨hf, hb, hw⟩ | ⟨hf, hb, hw⟩
    · exact .inl (by rw [← h, hw, hfired])
    · exact .inr ⟨f, want, rfl, Bool.eq_not.2 hf, .inl ⟨hb, by rw [← h, hw]; rfl⟩⟩
    · exact .inr ⟨f, want, rfl, Bool.eq_not.2 hf, .inr ⟨hb, by rw [← h, hw]; rfl⟩⟩


/-! ### What a step that goes through changes -/

/-- The states in which a command completes (R93). -/
def completes : Step → Bool
  | .w7WaitEnd | .s1Read | .s2Read1 | .snTailReadC => true
  | _ => false

section
variable (s : State) (n : Step)

@[simp] theorem fired_idle : s.fired .idle = s := rfl
@[simp] theorem fired_cmd : (s.fired n).cmd = s.cmd := by cases n <;> rfl
@[simp] theorem fired_fault : (s.fired n).fault = s.fault := by cases n <;> rfl
@[simp] theorem fired_params : (s.fired n).params = s.params := by cases n <;> rfl
@[simp] theorem fired_bus : (s.fired n).bus = s.bus := by cases n <;> rfl
@[simp] theorem fired_turns : (s.fired n).turns = s.turns := by cases n <;> rfl
@[simp] theorem fired_tick : (s.fired n).tick = s.tick := by cases n <;> rfl

/-- A data read fills the first cell the running read has not filled, and no other state writes `buf` (R17, R106). -/
theorem fired_buf :
    (s.fired n).buf = if readsData n then s.buf.set (filled s.idx s.cmd.length n) (.byte s.data) else s.buf := by
  cases n <;> rfl

/-- A state that completes answers `OK` at `IDLE` (R93). -/
theorem fired_completes (h : completes n = true) :
    (s.fired n).status = .ok ∧ (s.fired n).done = true ∧ (s.fired n).step = .idle := by
  cases n <;> simp only [completes, Bool.false_eq_true] at h <;> exact ⟨rfl, rfl, rfl⟩

/-- Every other state leaves the result (R93). -/
theorem fired_result (h : completes n = false) : (s.fired n).status = s.status ∧ (s.fired n).done = s.done := by
  cases n <;> simp only [completes, Bool.true_eq_false] at h <;> simp [State.fired]

/-- `IDLE` is the successor of the completing states only (R108). -/
theorem fired_step_ne_idle (hi : n ≠ .idle) (h : completes n = false) : (s.fired n).step ≠ .idle := by
  have hselect := afterSelect_cases s.params s.cmd
  have hpath := firstOfPath_cases s.cmd.length
  have hloop := fun i => streamOrTail_cases i s.cmd.length
  cases n <;> simp only [completes, Bool.true_eq_false, ne_eq, not_true_eq_false] at h hi <;>
    simp only [State.fired, advance_step, ne_eq, reduceCtorEq, not_false_eq_true]
  case p5WaitBtf => rcases hselect with ⟨-, h⟩ | ⟨-, -, h⟩ | ⟨-, -, h⟩ <;> simp [h]
  case r2WaitAddr => rcases hpath with ⟨-, h⟩ | ⟨-, h⟩ | ⟨-, -, h⟩ <;> simp [h]
  case snAddrClr => rcases hloop 0 with ⟨-, h⟩ | ⟨-, h⟩ <;> simp [h]
  case snStreamRead => rcases hloop (s.idx + 1) with ⟨-, h⟩ | ⟨-, h⟩ <;> simp [h]

end

/-! ### Turns -/

/-- A turn of the engine is one step of the state in `step` (R90). -/
theorem engineTurn_cases {s t : State} (h : s.engineTurn = .next t) :
    t = s.fired s.step ∨
    ∃ f want, pollOf s.params s.step = some (f, want) ∧ s.flags.get f = (!want) ∧
      ((s.params.pollBudget ≠ some (s.polls + 1) ∧ t = s.stayed f want) ∨
       (s.params.pollBudget = some (s.polls + 1) ∧ t = s.aborted f want)) :=
  exec_instr_cases h

/-- What makes `P` an invariant of every turn, agent by agent: the environment (with the controller's presenting of a
byte), the engine, the host's issue, reset and the platform; reading leaves the state alone. -/
structure KeptByTurns (P : State → Prop) : Prop where
  script : ∀ s rest, P s → P { s with turns := rest }
  env : ∀ s fl st sp d b k, (Memory.wf s.bus.mem → Memory.wf b.mem) → P s →
    P { s.withEnv fl st sp d b with tick := k }
  fired : ∀ s, P s → P (s.fired s.step)
  stayed : ∀ s f want, pollOf s.params s.step = some (f, want) → s.params.pollBudget ≠ some (s.polls + 1) → P s →
    P (s.stayed f want)
  aborted : ∀ s f want, pollOf s.params s.step = some (f, want) → P s → P (s.aborted f want)
  marked : ∀ s, s.step ≠ .idle → P s → P { s with fault := true }
  beginWrite : ∀ s a r v, s.step = .idle → P s → P (s.beginWrite a r v)
  beginRead : ∀ s a r n, s.step = .idle → 1 ≤ n → P s → P (s.beginRead a r n)
  rejected : ∀ s, s.step = .idle → P s → P (s.raise .reject)
  reset : ∀ s, P s → P s.resetEvent
  platform : ∀ s ackEnable pos, s.step = .idle → P s → P { s with ackEnable := ackEnable, pos := pos }

namespace KeptByTurns
variable {P : State → Prop} (hP : KeptByTurns P)
include hP

theorem engineTurn {s t : State} (hs : P s) (h : s.engineTurn = .next t) : P t := by
  rcases engineTurn_cases h with rfl | ⟨f, want, hpoll, -, ⟨hb, rfl⟩ | ⟨-, rfl⟩⟩
  · exact hP.fired s hs
  · exact hP.stayed s f want hpoll hb hs
  · exact hP.aborted s f want hpoll hs

theorem issueTurn {s t : State} {w : CmdWord} (hs : P s) (h : s.issueTurn w = .next t) : P t := by
  rcases issueTurn_cases s w with ⟨hi, h'⟩ | ⟨hi, ⟨a, r, v, h'⟩ | ⟨a, r, n, hn, h'⟩ | h'⟩ <;>
    rw [h'] at h <;> injection h with h <;> subst h
  · exact hP.marked s hi hs
  · exact hP.beginWrite s a r v hi hs
  · exact hP.beginRead s a r n hi hn hs
  · exact hP.rejected s hi hs

theorem busPresent {s : State} (hs : P s) : P s.busPresent := by
  rcases busPresent_cases s with h | ⟨-, -, h⟩ <;> rw [h]
  · exact hs
  · exact hP.env s s.flags s.start s.stop (Config.noByte s.tick) s.bus (s.tick + 1) id hs

theorem conformingTurn {s t : State} (hs : P s) (h : s.conformingTurn = .next t) : P t := by
  obtain ⟨u, fl, st, sp, d, b, hu, rfl, hwf⟩ := conformingTurn_cases h
  exact hP.env u fl st sp d b u.tick hwf (hP.engineTurn (hP.busPresent hs) hu)

/-- An invariant of every agent's turn is an invariant of the machine's step (R35, R90). -/
theorem step {s t : State} (hs : P s) (h : Machine.step s = .next t) : P t := by
  rcases step_cases h with ⟨-, h⟩ | ⟨turn, rest, s', -, rfl, h⟩
  · obtain ⟨fl, st, sp, d, b, he, hwf⟩ := envFree_cases s
    exact hP.engineTurn (he ▸ hP.env s fl st sp d b (s.tick + 1) hwf hs) h
  · have hs' := hP.script s rest hs
    cases turn with
    | engine => exact hP.engineTurn hs' h
    | conforming => exact hP.conformingTurn hs' h
    | env m =>
      obtain ⟨fl, st, sp, d, b, he, hwf⟩ := envMove_cases { s with turns := rest } m
      exact h ▸ he ▸ hP.env _ fl st sp d b s.tick hwf hs'
    | issue w => exact hP.issueTurn hs' h
    | reset => exact h ▸ hP.reset _ hs'
    | platform a p => exact h.2 ▸ hP.platform _ a p h.1 hs'
    | readBuf i => exact h ▸ hs'
    | readStatus => exact h ▸ hs'

end KeptByTurns

end Sys2Proof.Machine
end

section
/-! SUPPORT. Every turn keeps the invariant of the command registers: `done` and `status`, the sequencer's path, `idx` and
`buf`. -/

namespace Sys2Proof.Machine

/-! ### The read buffer as a running read fills it (R17) -/

/-- Writing the first unfilled cell fills one cell more. -/
theorem filledTo_set {buf : List BufCell} {k : Nat} (h : filledTo buf k) (hk : k < buf.length) (b : Byte) :
    filledTo (buf.set k (.byte b)) (k + 1) := by
  obtain ⟨htake, hdrop⟩ := h
  have hlen : (buf.take k).length = k := List.length_take_of_le hk.le
  rw [List.set_eq_take_append_cons_drop, if_pos hk]
  constructor
  · intro c hc
    rw [List.take_append, hlen, Nat.add_sub_cancel_left, List.take_take, min_eq_right (Nat.le_succ k)] at hc
    rcases List.mem_append.1 hc with hc | hc
    · exact htake c hc
    · simp at hc; simp [hc, BufCell.isByte]
  · intro c hc
    rw [List.drop_append, hlen, Nat.add_sub_cancel_left, List.drop_of_length_le (by omega)] at hc
    exact hdrop c (List.drop_subset_drop_left buf k.le_succ hc)

/-- A buffer filled to its length holds a byte in every cell. -/
theorem isByte_of_filledTo {buf : List BufCell} (h : filledTo buf buf.length) : ∀ c ∈ buf, c.isByte = true := by
  simpa using h.1

/-- A new buffer is filled nowhere. -/
theorem filledTo_replicate_empty (n : Nat) : filledTo (List.replicate n .empty) 0 :=
  ⟨by simp, fun _ hc => List.eq_of_mem_replicate hc⟩

/-! ### What the operand-chosen successors meet (R119, R148, R177, R179) -/

theorem stepFits_afterSelect {p : Params} {c : Command} (h : c.dir = .read → 1 ≤ c.length) :
    stepFits p c (afterSelect p c) := by
  rcases afterSelect_cases p c with ⟨hd, ha⟩ | ⟨hd, hr, ha⟩ | ⟨hd, -, ha⟩ <;> rw [ha]
  · exact hd
  · exact ⟨hd, h hd, hr⟩
  · exact ⟨hd, h hd⟩

theorem stepFits_firstOfPath {p : Params} {c : Command} (h : c.dir = .read ∧ 1 ≤ c.length) :
    stepFits p c (firstOfPath c.length) := by
  obtain ⟨hd, hl⟩ := h
  rcases firstOfPath_cases c.length with ⟨h1, hp⟩ | ⟨h2, hp⟩ | ⟨h1, h2, hp⟩ <;> rw [hp]
  · exact ⟨hd, h1⟩
  · exact ⟨hd, h2⟩
  · exact ⟨hd, by omega⟩

theorem stepFits_streamOrTail {p : Params} {c : Command} (h : c.dir = .read ∧ 3 ≤ c.length) (i : Nat) :
    stepFits p c (streamOrTail i c.length) := by
  rcases streamOrTail_cases i c.length with ⟨-, hp⟩ | ⟨-, hp⟩ <;> rw [hp] <;> exact h

theorem filled_afterSelect (p : Params) (c : Command) (i : Nat) : filled i c.length (afterSelect p c) = 0 := by
  rcases afterSelect_cases p c with ⟨-, h⟩ | ⟨-, -, h⟩ | ⟨-, -, h⟩ <;> rw [h] <;> rfl

theorem filled_firstOfPath (i length : Nat) : filled i length (firstOfPath length) = 0 := by
  rcases firstOfPath_cases length with ⟨-, h⟩ | ⟨-, h⟩ | ⟨-, -, h⟩ <;> rw [h] <;> rfl

/-- The loop of RDN goes on, or goes to the tail, with `i` cells filled. -/
theorem filled_streamOrTail {i length : Nat} (h : i ≤ length - 3) : filled i length (streamOrTail i length) = i := by
  rcases streamOrTail_cases i length with ⟨-, hp⟩ | ⟨hi, hp⟩ <;> rw [hp]
  · rfl
  · exact le_antisymm (not_lt.1 hi) h

/-- A state the loop of RDN goes on to, by an index that is in bounds (R177, R179). -/
theorem indexOk_of_streamOrTail {s : State} (hs : s.step = streamOrTail s.idx s.cmd.length)
    (h : s.idx ≤ s.cmd.length - 3) : s.IndexOk := by
  unfold State.IndexOk
  rcases streamOrTail_cases s.idx s.cmd.length with ⟨hi, hp⟩ | ⟨hi, hp⟩ <;> rw [hs, hp]
  · exact hi
  · exact le_antisymm h (not_lt.1 hi)

/-! ### The invariant of the command registers -/

/-- The class of an abort is a failure (R203). -/
theorem abortClass_ne (f : Flag) : abortClass f ≠ .ok ∧ abortClass f ≠ .noResult := by cases f <;> decide

section
variable {s : State}

/-- The engine's steps follow the command's direction and length (R119, R148). -/
theorem pathOk_fired (h : s.PathOk) : (s.fired s.step).PathOk := by
  unfold State.PathOk at h ⊢
  simp only [fired_params, fired_cmd]
  cases hn : s.step <;> rw [hn] at h
  case p5WaitBtf => exact stepFits_afterSelect h
  case r2WaitAddr => exact stepFits_firstOfPath h
  case snAddrClr => exact stepFits_streamOrTail h 0
  case snStreamRead => exact stepFits_streamOrTail h (s.idx + 1)
  all_goals simp_all [State.fired, stepFits]

/-- The streaming index stays in its bounds (R177, R179). -/
theorem indexOk_fired (hi : s.step ≠ .idle) (h : s.IndexOk) : (s.fired s.step).IndexOk := by
  unfold State.IndexOk at h
  cases hn : s.step <;> rw [hn] at h
  case idle => exact absurd hn hi
  case p5WaitBtf =>
    rcases afterSelect_cases s.params s.cmd with ⟨-, hp⟩ | ⟨-, -, hp⟩ | ⟨-, -, hp⟩ <;>
      simp [State.IndexOk, State.fired, hp]
  case r2WaitAddr =>
    rcases firstOfPath_cases s.cmd.length with ⟨-, hp⟩ | ⟨-, hp⟩ | ⟨-, -, hp⟩ <;>
      simp [State.IndexOk, State.fired, hp]
  case snAddrClr => exact indexOk_of_streamOrTail rfl (Nat.zero_le _)
  case snStreamRead => exact indexOk_of_streamOrTail rfl h
  case snTailReadC => trivial
  all_goals exact h

/-- A state that reads data has a cell left to fill. -/
theorem filled_lt_length (hpath : s.PathOk) (hindex : s.IndexOk) (h : readsData s.step = true) :
    filled s.idx s.cmd.length s.step < s.cmd.length := by
  unfold State.PathOk at hpath
  unfold State.IndexOk at hindex
  cases hn : s.step <;> simp only [hn, readsData, Bool.false_eq_true, stepFits, filled] at h hpath hindex ⊢ <;> omega

/-- The count of filled cells goes with the sequencer: the next state has one more exactly after a data read (R17). -/
theorem filled_fired (hpath : s.PathOk) (hindex : s.IndexOk) (ht : (s.fired s.step).step ≠ .idle) :
    filled (s.fired s.step).idx s.cmd.length (s.fired s.step).step =
      filled s.idx s.cmd.length s.step + if readsData s.step then 1 else 0 := by
  unfold State.PathOk at hpath
  unfold State.IndexOk at hindex
  cases hn : s.step <;> rw [hn] at hpath hindex ht
  case idle => exact absurd hn ht
  case p5WaitBtf => exact filled_afterSelect s.params s.cmd s.idx
  case r2WaitAddr => exact filled_firstOfPath s.idx s.cmd.length
  case snAddrClr => exact filled_streamOrTail (Nat.zero_le _)
  case snStreamRead => exact filled_streamOrTail hindex
  case snTailReadA | snTailReadB =>
    obtain ⟨-, hl⟩ := hpath
    simp only [State.fired, advance_step, filled, readsData, if_true]
    omega
  case s1Read | s2Read1 | snTailReadC | w7WaitEnd => exact absurd rfl ht
  all_goals rfl

/-- When a read completes its last cell is the one it fills (R165, R174, R187). -/
theorem filled_of_completes (hpath : s.PathOk) (hdir : s.cmd.dir = .read) (h : completes s.step = true) :
    readsData s.step = true ∧ filled s.idx s.cmd.length s.step + 1 = s.cmd.length := by
  unfold State.PathOk at hpath
  cases hn : s.step <;> rw [hn] at hpath h <;> simp only [completes, Bool.false_eq_true] at h
  case w7WaitEnd => simp [stepFits, hdir] at hpath
  all_goals
    obtain ⟨-, hl⟩ := hpath
    exact ⟨rfl, by simp only [filled]; omega⟩

/-- A step of a running read fills the next cell, or none (R17). -/
theorem filledTo_fired (hpath : s.PathOk) (hindex : s.IndexOk) (hlen : s.buf.length = s.cmd.length)
    (h : filledTo s.buf (filled s.idx s.cmd.length s.step)) :
    filledTo (s.fired s.step).buf
      (filled s.idx s.cmd.length s.step + if readsData s.step then 1 else 0) := by
  rw [fired_buf]
  split
  · exact filledTo_set h (hlen ▸ filled_lt_length hpath hindex ‹_›) s.data
  · exact h

/-- A running read goes on filling `buf` in order, and has filled it when it ends (R17). -/
theorem bufferOk_fired (hi : s.step ≠ .idle) (h : s.CommandOk) : (s.fired s.step).BufferOk := by
  obtain ⟨-, hpath, hindex, hlen, hread⟩ := h
  have hlen' : (s.fired s.step).buf.length = s.cmd.length := by
    rw [fired_buf]
    split <;> simp [hlen]
  refine ⟨by rw [hlen', fired_cmd], fun hdir => ?_⟩
  rw [fired_cmd] at hdir ⊢
  have hfilled := filledTo_fired hpath hindex hlen ((hread hdir).1 hi)
  refine ⟨fun ht => ?_, fun ht _ => ?_⟩
  · rwa [filled_fired hpath hindex ht]
  · have hc : completes s.step = true := by
      by_contra hc
      exact fired_step_ne_idle s s.step hi (by simpa using hc) ht
    obtain ⟨hr, hall⟩ := filled_of_completes hpath hdir hc
    rw [if_pos hr, hall, ← hlen'] at hfilled
    exact isByte_of_filledTo hfilled

/-- `done` and `status` change together, and only at the end of a command (R93). -/
theorem resultOk_fired (hi : s.step ≠ .idle) (h : s.ResultOk) : (s.fired s.step).ResultOk := by
  obtain ⟨hiff, hrun⟩ := h
  by_cases hc : completes s.step = true
  · obtain ⟨hs, hd, ht⟩ := fired_completes s s.step hc
    simp [State.ResultOk, hs, hd, ht]
  · obtain ⟨hs, hd⟩ := fired_result s s.step (by simpa using hc)
    exact ⟨by rw [hs, hd]; exact hiff, fun _ => hd ▸ hrun hi⟩

theorem commandOk_fired (h : s.CommandOk) : (s.fired s.step).CommandOk := by
  by_cases hi : s.step = .idle
  · rw [hi, fired_idle]
    exact h
  · exact ⟨resultOk_fired hi h.result, pathOk_fired h.path, indexOk_fired hi h.index, bufferOk_fired hi h⟩

/-- A command that ends by an abort or a rejection leaves a result that is not `OK`, and a buffer of its length (R204,
R207). -/
theorem commandOk_of_failed (hi : s.step = .idle) (hd : s.done = true) (hok : s.status ≠ .ok)
    (hnone : s.status ≠ .noResult) (hlen : s.buf.length = s.cmd.length) : s.CommandOk where
  result := ⟨⟨fun _ => hnone, fun _ => hd⟩, fun h => absurd hi h⟩
  path := by rw [State.PathOk, hi]; trivial
  index := by rw [State.IndexOk, hi]; trivial
  buffer := ⟨hlen, fun _ => ⟨fun h => absurd hi h, fun _ h => absurd h hok⟩⟩

theorem commandOk_beginWrite (h : s.CommandOk) (a : SlaveAddr) (r v : Byte) : (s.beginWrite a r v).CommandOk where
  result := ⟨by simp [State.beginWrite], fun _ => rfl⟩
  path := fun hd => nomatch hd
  index := trivial
  buffer := ⟨h.buffer.1, fun hd => nomatch hd⟩

theorem commandOk_beginRead (a : SlaveAddr) (r : Byte) {n : Nat} (hn : 1 ≤ n) : (s.beginRead a r n).CommandOk where
  result := ⟨by simp [State.beginRead], fun _ => rfl⟩
  path := fun _ => hn
  index := trivial
  buffer := ⟨List.length_replicate, fun _ => ⟨fun _ => filledTo_replicate_empty n, fun h => nomatch h⟩⟩

theorem commandOk_resetEvent : s.resetEvent.CommandOk where
  result := ⟨by simp [State.resetEvent], fun _ => rfl⟩
  path := trivial
  index := trivial
  buffer := ⟨rfl, fun hd => nomatch hd⟩

end

/-- The invariant speaks of the command registers alone, so what writes no such register keeps it. -/
theorem commandOk_keptByTurns : KeptByTurns State.CommandOk where
  script _ _ h := ⟨h.result, h.path, h.index, h.buffer⟩
  env _ _ _ _ _ _ _ _ h := ⟨h.result, h.path, h.index, h.buffer⟩
  fired _ h := commandOk_fired h
  stayed _ _ _ _ _ h := ⟨h.result, h.path, h.index, h.buffer⟩
  aborted _ f _ _ h :=
    commandOk_of_failed rfl rfl (abortClass_ne f).1 (abortClass_ne f).2
      ((List.length_map _).trans h.buffer.1)
  marked _ _ h := ⟨h.result, h.path, h.index, h.buffer⟩
  beginWrite _ a r v _ h := commandOk_beginWrite h a r v
  beginRead _ a r _ _ hn _ := commandOk_beginRead a r hn
  rejected _ _ h := commandOk_of_failed rfl rfl Status.noConfusion Status.noConfusion h.buffer.1
  reset _ _ := commandOk_resetEvent
  platform _ _ _ _ h := ⟨h.result, h.path, h.index, h.buffer⟩

/-- Settles O38: each agent's turn keeps the invariant, the engine's by the index and the cells it fills. -/
theorem commandInvariantKept : Obligations.CommandInvariantKept :=
  fun _ _ hs h => commandOk_keptByTurns.step hs h

end Sys2Proof.Machine
end

section
/-! SUPPORT. The statements about the control bits, the mark `fault`, reset, the environment and the host's reading
(10_state.md). -/

namespace Sys2Proof.Machine

/-! ### The control bits a read drives (R15, R30) -/

/-- The control bits keep what the read drove. Its writes of them are the opening's two (R142, R143), the BitClear of
the acknowledge in each path (R161, R170, R181) and RD2's BitSet of `pos` (R168). -/
theorem controlBits_fired {s : State} (h : s.PolicyOk ∧ s.PosOk) :
    (s.fired s.step).PolicyOk ∧ (s.fired s.step).PosOk := by
  by_cases hi : s.step = .idle
  · rwa [hi, fired_idle]
  unfold State.PolicyOk State.PosOk at h
  cases hn : s.step <;> rw [hn] at h
  case idle => exact absurd hn hi
  case p5WaitBtf =>
    rcases afterSelect_cases s.params s.cmd with ⟨-, hp⟩ | ⟨-, -, hp⟩ | ⟨-, hr, hp⟩ <;>
      simp [State.PolicyOk, State.PosOk, State.fired, *]
  case r2WaitAddr =>
    rcases firstOfPath_cases s.cmd.length with ⟨-, hp⟩ | ⟨-, hp⟩ | ⟨-, -, hp⟩ <;>
      simpa [State.PolicyOk, State.PosOk, State.fired, hp] using h
  case snAddrClr =>
    rcases streamOrTail_cases 0 s.cmd.length with ⟨-, hp⟩ | ⟨-, hp⟩ <;>
      simpa [State.PolicyOk, State.PosOk, State.fired, hp] using h
  case snStreamRead =>
    rcases streamOrTail_cases (s.idx + 1) s.cmd.length with ⟨-, hp⟩ | ⟨-, hp⟩ <;>
      simpa [State.PolicyOk, State.PosOk, State.fired, hp] using h
  case r0AckSet => exact ⟨⟨rfl, rfl⟩, trivial⟩
  case r0PosClr => exact ⟨fun _ => h.1, fun _ => rfl⟩
  case s2PosSet => exact ⟨h.1, rfl⟩
  case s1AckClr | s2AckClr | snTailAckClr => exact ⟨⟨rfl, rfl⟩, h.2⟩
  case s1Read | s2Read1 | snTailReadC => exact ⟨trivial, trivial⟩
  all_goals exact h

/-- At `IDLE` nothing is said of the control bits (R243). -/
theorem controlBits_idle {s : State} (h : s.step = .idle) : s.PolicyOk ∧ s.PosOk := by
  simp [State.PolicyOk, State.PosOk, h]

/-- Before its opening a command says nothing of the control bits, and the environment changes neither (log 32). -/
theorem controlBits_keptByTurns : KeptByTurns fun s => s.PolicyOk ∧ s.PosOk where
  script _ _ h := h
  env _ _ _ _ _ _ _ _ h := h
  fired _ h := controlBits_fired h
  stayed _ _ _ _ _ h := h
  aborted _ _ _ _ _ := controlBits_idle rfl
  marked _ _ h := h
  beginWrite _ _ _ _ _ _ := ⟨trivial, trivial⟩
  beginRead _ _ _ _ _ _ _ := ⟨trivial, trivial⟩
  rejected _ _ _ := controlBits_idle rfl
  reset _ _ := controlBits_idle rfl
  platform _ _ _ hi _ := controlBits_idle hi

/-- Settles O40: the engine's steps are the only turns that write the bits while a command runs. -/
theorem controlBitsFollowRead : Obligations.ControlBitsFollowRead :=
  fun _ _ hpolicy hpos h => controlBits_keptByTurns.step ⟨hpolicy, hpos⟩ h

/-! ### Reset and the environment -/

/-- Settles O37: at `IDLE`, with no result, no command that reads and no budget, each invariant is met. -/
theorem resetMeetsInvariants : Obligations.ResetMeetsInvariants := by
  obtain ⟨hpolicy, hpos⟩ := controlBits_idle (s := State.reset) rfl
  exact ⟨trivial, commandOk_resetEvent (s := State.reset), hpolicy, hpos, List.Pairwise.nil, by
    simp [State.reset, Bus.blank]⟩

/-- Settles O49: the record updates of a move, and of a free one, name none of these fields but the flags and `data`. -/
theorem environmentFrame : Obligations.EnvironmentFrame :=
  fun _ _ => ⟨rfl, rfl, rfl, rfl, rfl, rfl, rfl, rfl, rfl, rfl⟩

/-! ### The host's reading of the result (R17, R217) -/

theorem readBufTurn_of_error {s : State} {i : Nat} {e : Fault} (h : s.hostReadBuf i = .error e) :
    s.readBufTurn i = .fault e := by
  simp [State.readBufTurn, h]

theorem readBufTurn_of_ok {s : State} {i : Nat} {b : Byte} (h : s.hostReadBuf i = .ok b) :
    s.readBufTurn i = .next s := by
  simp [State.readBufTurn, h]

/-- After a read that ended with `OK` the host gets a byte from every cell (R17). -/
theorem hostReadBuf_after_read {s : State} {i : Nat} (h : s.CommandOk) (hi : s.step = .idle) (hs : s.status = .ok)
    (hr : s.cmd.dir = .read) (hlt : i < s.cmd.length) : ∃ b, s.hostReadBuf i = .ok b := by
  obtain ⟨⟨hdone, -⟩, -, -, hlen, hread⟩ := h
  have hd : s.done = true := hdone.2 (by simp [hs])
  have hlt' : i < s.buf.length := hlen ▸ hlt
  have hbyte := (hread hr).2 hi hs s.buf[i] (List.getElem_mem hlt')
  cases hc : s.buf[i] with
  | byte b => exact ⟨b, hostReadBuf_ok.2 ⟨hd, hs, hr, by rw [List.getElem?_eq_getElem hlt', hc]⟩⟩
  | empty | unspecified => simp [hc, BufCell.isByte] at hbyte

/-- Settles O51: the branches of the host's read in their order, and the invariant of the command registers. -/
theorem hostReadGuarded : Obligations.HostReadGuarded := by
  intro s i
  refine ⟨⟨rfl, rfl⟩, fun hd => hostResult_eq_some.2 ⟨hd, rfl⟩, fun hd => ?_, fun hok hd => ?_, fun hd => ?_,
    fun hd hi => ?_, fun hd hc => ?_, fun hd hc => ?_, fun b hd hc => ⟨fun hs => ?_, fun hs hw => ?_, fun hs hr => ?_⟩,
    hostReadBuf_after_read⟩
  · simp [State.hostResult, hd]
  · by_contra hs
    exact absurd (hok.result.1.2 hs) (by simp [hd])
  · exact readBufTurn_of_error (by simp [State.hostReadBuf, hd])
  · exact readBufTurn_of_error (by simp [State.hostReadBuf, hd, hi])
  · exact readBufTurn_of_error (by simp [State.hostReadBuf, hd, hc])
  · exact readBufTurn_of_error (by simp [State.hostReadBuf, hd, hc])
  · exact readBufTurn_of_error (by simp [State.hostReadBuf, hd, hc, hs])
  · exact readBufTurn_of_error (by simp [State.hostReadBuf, hd, hc, hs, hw])
  · have hread : s.hostReadBuf i = .ok b := hostReadBuf_ok.2 ⟨hd, hs, hr, hc⟩
    exact ⟨hread, readBufTurn_of_ok hread⟩

/-! ### The mark `fault` (R19) -/

theorem engineTurn_fault {s t : State} (h : s.engineTurn = .next t) : t.fault = s.fault := by
  rcases engineTurn_cases h with rfl | ⟨f, want, -, -, ⟨-, rfl⟩ | ⟨-, rfl⟩⟩
  · exact fired_fault s s.step
  · rfl
  · rfl

theorem conformingTurn_fault {s t : State} (h : s.conformingTurn = .next t) : t.fault = s.fault := by
  obtain ⟨u, fl, st, sp, d, b, hu, rfl, -⟩ := conformingTurn_cases h
  have hpresent : s.busPresent.fault = s.fault := by
    rcases busPresent_cases s with hp | ⟨-, -, hp⟩ <;> rw [hp]
  exact (engineTurn_fault hu).trans hpresent

/-- An issue at `IDLE` leaves the mark, and one while a command runs sets it (R215). -/
theorem issueTurn_fault {s t : State} {w : CmdWord} (h : s.issueTurn w = .next t) :
    (s.step = .idle ∧ t.fault = s.fault) ∨ (s.step ≠ .idle ∧ t.fault = true) := by
  rcases issueTurn_cases s w with ⟨hi, h'⟩ | ⟨hi, ⟨a, r, v, h'⟩ | ⟨a, r, n, -, h'⟩ | h'⟩ <;>
    rw [h'] at h <;> injection h with h <;> subst h
  · exact .inr ⟨hi, rfl⟩
  all_goals exact .inl ⟨hi, rfl⟩

/-- What a step does to the mark: an issue while a command runs sets it, reset clears it, every other turn leaves it. -/
theorem step_fault {s t : State} (h : step s = .next t) :
    (s.step ≠ .idle ∧ (∃ w, s.turns.head? = some (.issue w)) ∧ t.fault = true) ∨
    (s.turns.head? = some .reset ∧ t.fault = false) ∨
    ((∀ w, s.turns.head? = some (.issue w) → s.step = .idle) ∧ t.fault = s.fault) := by
  rcases step_cases h with ⟨hturns, h⟩ | ⟨turn, rest, s', hturns, rfl, h⟩
  · exact .inr (.inr ⟨by simp [hturns], engineTurn_fault (s := s.envFree) h⟩)
  · rw [hturns, List.head?_cons]
    cases turn with
    | issue w =>
      rcases issueTurn_fault h with ⟨hi, hf⟩ | ⟨hi, hf⟩
      · exact .inr (.inr ⟨fun _ _ => hi, hf⟩)
      · exact .inl ⟨hi, ⟨w, rfl⟩, hf⟩
    | reset => exact .inr (.inl ⟨rfl, h ▸ rfl⟩)
    | engine => exact .inr (.inr ⟨by simp, engineTurn_fault (s := { s with turns := rest }) h⟩)
    | conforming => exact .inr (.inr ⟨by simp, conformingTurn_fault (s := { s with turns := rest }) h⟩)
    | env m => exact .inr (.inr ⟨by simp, h ▸ rfl⟩)
    | platform a p => exact .inr (.inr ⟨by simp, h.2 ▸ rfl⟩)
    | readBuf i => exact .inr (.inr ⟨by simp, h ▸ rfl⟩)
    | readStatus => exact .inr (.inr ⟨by simp, h ▸ rfl⟩)

/-- Settles O36: the three clauses read off from what a step does to the mark. -/
theorem faultMarkSticks : Obligations.FaultMarkSticks := by
  intro s t h
  rcases step_fault h with ⟨hi, hw, hf⟩ | ⟨hr, hf⟩ | ⟨hw, hf⟩
  · exact ⟨fun _ _ => hf, fun _ _ _ => hf, fun _ _ => ⟨hi, hw⟩⟩
  · exact ⟨fun _ h => absurd hr h, fun w _ h => by simp [hr] at h, fun _ h => by simp [hf] at h⟩
  · exact ⟨fun h _ => hf.trans h, fun w hi h => absurd (hw w h) hi, fun h ht => by simp [hf, h] at ht⟩

end Sys2Proof.Machine
end

section
/-! SUPPORT. The frame of every instruction: what a command word, an address byte and a step of a sequencer state leave
unchanged, register by register. -/

namespace Sys2Proof.Machine

/-! ### What a step that goes through leaves unchanged -/

section
variable (s : State) {n : Step}

theorem fired_ackEnable (h : n ∉ [Step.r0AckSet, .s1AckClr, .s2AckClr, .snTailAckClr]) :
    (s.fired n).ackEnable = s.ackEnable := by
  cases n <;> simp [State.fired] at h ⊢

theorem fired_ackPolicy (h : n ∉ [Step.r0AckSet, .s1AckClr, .s2AckClr, .snTailAckClr]) :
    (s.fired n).ackPolicy = s.ackPolicy := by
  cases n <;> simp [State.fired] at h ⊢

theorem fired_pos (h : n ∉ [Step.r0PosClr, .s2PosSet]) : (s.fired n).pos = s.pos := by
  cases n <;> simp [State.fired] at h ⊢

theorem fired_start (h : n ∉ [Step.p2Start, .r1Restart]) : (s.fired n).start = s.start := by
  cases n <;> simp [State.fired] at h ⊢

theorem fired_stop (h : n ∉ [Step.w6Stop, .s1Stop, .s2Stop, .snTailStop]) : (s.fired n).stop = s.stop := by
  cases n <;> simp [State.fired] at h ⊢

theorem fired_idx (h : n ∉ [Step.snAddrClr, .snStreamRead]) : (s.fired n).idx = s.idx := by
  cases n <;> simp [State.fired] at h ⊢

theorem fired_flags (h : n ∉ [Step.s1AddrClr, .s2AddrClr, .snAddrClr]) : (s.fired n).flags = s.flags := by
  cases n <;> simp [State.fired] at h ⊢

theorem fired_data (h : n ∉ [Step.p3AddrW, .p4Reg, .w5Value, .r2AddrR]) : (s.fired n).data = s.data := by
  cases n <;> simp [State.fired] at h ⊢

theorem readsData_eq_false
    (h : n ∉ [Step.s1Read, .s2Read0, .s2Read1, .snStreamRead, .snTailReadA, .snTailReadB, .snTailReadC]) :
    readsData n = false := by
  cases n <;> simp [readsData] at h ⊢

theorem completes_eq_false (h : n ∉ [Step.w7WaitEnd, .s1Read, .s2Read1, .snTailReadC]) : completes n = false := by
  cases n <;> simp [completes] at h ⊢

end

/-- A state whose instruction is not among those of a list of states is not in the list. -/
theorem not_mem_of_instr {n : Step} {l : List Step} (h : n.instr ∉ l.map Step.instr) : n ∉ l :=
  fun hn => h (List.mem_map_of_mem hn)

theorem isCommand_instr (n : Step) : isCommand n.instr = false := by cases n <;> rfl

/-! ### What an instruction can do -/

theorem exists_instr_of_mem {i : Instr} (h : i ∈ (Step.writeStates ++ Step.readStates).map Step.instr) :
    ∃ n : Step, i = n.instr := by
  obtain ⟨n, -, hn⟩ := List.mem_map.1 h
  exact ⟨n, hn.symm⟩

/-- Every instruction is a command word, an address byte or a sequencer state (R70). -/
theorem instr_kinds (i : Instr) :
    isCommand i = true ∨ (∃ a, i = .slaW a ∨ i = .slaR a) ∨ ∃ n : Step, i = n.instr := by
  cases i
  case wr | wrReserved | rd0 | rd1 | rd2 | rdn => exact .inl rfl
  case slaW a => exact .inr (.inl ⟨a, .inl rfl⟩)
  case slaR a => exact .inr (.inl ⟨a, .inr rfl⟩)
  all_goals exact .inr (.inr (exists_instr_of_mem (by decide)))

/-- A command word is an issue: of a write, of a read, or of a word that is rejected (R76 to R78, R95). -/
theorem exec_command {i : Instr} (s : State) (hc : isCommand i = true) :
    ∃ accept : State → State, exec i s = .next (s.issued accept) ∧
      ((∃ a r v, accept s = s.beginWrite a r v) ∨ (∃ a r k, accept s = s.beginRead a r k) ∨
        accept s = s.raise .reject) := by
  cases i <;> simp only [isCommand, Bool.false_eq_true] at hc
  case wr a r v => exact ⟨_, rfl, .inl ⟨a, r, v, rfl⟩⟩
  case rd1 a r => exact ⟨_, rfl, .inr (.inl ⟨a, r, 1, rfl⟩)⟩
  case rd2 a r => exact ⟨_, rfl, .inr (.inl ⟨a, r, 2, rfl⟩)⟩
  case rdn a r k => exact ⟨_, rfl, .inr (.inl ⟨a, r, k.toNat, rfl⟩)⟩
  case wrReserved | rd0 => exact ⟨_, rfl, .inr (.inr rfl)⟩

/-- Everything a command word can do, whatever its operands (R95, R207, R215). -/
theorem exec_command_cases {i : Instr} {s t : State} (hc : isCommand i = true) (h : exec i s = .next t) :
    (s.step ≠ .idle ∧ t = { s with fault := true }) ∨
    (s.step = .idle ∧
      ((∃ a r v, t = s.beginWrite a r v) ∨ (∃ a r k, t = s.beginRead a r k) ∨ t = s.raise .reject)) := by
  obtain ⟨accept, hexec, haccept⟩ := exec_command s hc
  rw [hexec] at h
  injection h with h
  by_cases hi : s.step = .idle
  · rw [issued_idle s hi] at h
    exact .inr ⟨hi, h ▸ haccept⟩
  · rw [issued_busy s hi] at h
    exact .inl ⟨hi, h.symm⟩

/-- An address byte by itself is one data write (R98, R99). -/
theorem exec_addressByte {i : Instr} {a : SlaveAddr} {s t : State} (hi : i = .slaW a ∨ i = .slaR a)
    (h : exec i s = .next t) : ∃ v, t = s.dataWrite v := by
  rcases hi with rfl | rfl <;> injection h with h <;> exact ⟨_, h.symm⟩

/-- Everything an instruction can do: a command word is issued, an address byte is written, a sequencer state goes through,
its wait stays, or its wait spends the budget and aborts. -/
theorem exec_cases {i : Instr} {s t : State} (h : exec i s = .next t) :
    isCommand i = true ∨
    ((∃ a, i = .slaW a ∨ i = .slaR a) ∧ ∃ v, t = s.dataWrite v) ∨
    (∃ n, i = Step.instr n ∧ t = s.fired n) ∨
    (∃ f want, t = s.stayed f want) ∨
    (s.Spends i ∧ ∃ f want, t = s.aborted f want) := by
  rcases instr_kinds i with hc | ⟨a, ha⟩ | ⟨n, rfl⟩
  · exact .inl hc
  · exact .inr (.inl ⟨⟨a, ha⟩, exec_addressByte ha h⟩)
  · rcases exec_instr_cases h with rfl | ⟨f, want, hp, hf, ⟨-, rfl⟩ | ⟨hb, rfl⟩⟩
    · exact .inr (.inr (.inl ⟨n, rfl, rfl⟩))
    · exact .inr (.inr (.inr (.inl ⟨f, want, rfl⟩)))
    · exact .inr (.inr (.inr (.inr ⟨⟨n, f, want, rfl, hp, hf, hb⟩, f, want, rfl⟩)))

/-- A rejected word at `IDLE`, or an ignored one, leaves the command registers but `status` and `done` (R207, R215). -/
theorem exec_illegal {i : Instr} {a : SlaveAddr} {r v x : Byte} {s t : State}
    (hi : i = .wrReserved a r v x ∨ i = .rd0 a r) (h : exec i s = .next t) :
    t.step = s.step ∧ t.polls = s.polls ∧ t.cmd = s.cmd ∧ t.buf = s.buf := by
  have hexec : exec i s = .next (s.issued (·.raise .reject)) := by rcases hi with rfl | rfl <;> rfl
  rw [hexec] at h
  injection h with h
  by_cases hs : s.step = .idle
  · rw [← h, issued_idle s hs]
    exact ⟨hs.symm, rfl, rfl, rfl⟩
  · rw [← h, issued_busy s hs]
    exact ⟨rfl, rfl, rfl, rfl⟩

/-! ### The frame, register by register -/

/-- The fields that only a step that goes through can change: the bits of the register interface, the flags, `ack_policy`
and `idx`. -/
structure State.SameControls (s t : State) : Prop where
  ackEnable : t.ackEnable = s.ackEnable
  ackPolicy : t.ackPolicy = s.ackPolicy
  pos : t.pos = s.pos
  start : t.start = s.start
  stop : t.stop = s.stop
  idx : t.idx = s.idx
  flags : t.flags = s.flags

section
variable {i : Instr} {s t : State}

/-- A command word writes nothing of the register interface and no `idx`, and leaves no event (R95, R207). -/
theorem exec_command_frame (h : exec i s = .next t) (hc : isCommand i = true) :
    s.SameControls t ∧ t.data = s.data ∧ t.trace = s.trace := by
  rcases exec_command_cases hc h with ⟨-, rfl⟩ | ⟨-, ⟨a, r, v, rfl⟩ | ⟨a, r, k, rfl⟩ | rfl⟩ <;>
    exact ⟨⟨rfl, rfl, rfl, rfl, rfl, rfl, rfl⟩, rfl, rfl⟩

/-- A command word issued while a command runs is ignored (R215). -/
theorem exec_command_running (h : exec i s = .next t) (hc : isCommand i = true) (hs : s.step ≠ .idle) :
    t = { s with fault := true } := by
  rcases exec_command_cases hc h with ⟨-, ht⟩ | ⟨hi, -⟩
  · exact ht
  · exact absurd hi hs

theorem fired_or_sameControls (h : exec i s = .next t) :
    (∃ n, i = Step.instr n ∧ t = s.fired n) ∨ s.SameControls t := by
  rcases exec_cases h with hc | ⟨-, v, rfl⟩ | hfired | ⟨f, want, rfl⟩ | ⟨-, f, want, rfl⟩
  · exact .inr (exec_command_frame h hc).1
  · exact .inr ⟨rfl, rfl, rfl, rfl, rfl, rfl, rfl⟩
  · exact .inl hfired
  · exact .inr ⟨rfl, rfl, rfl, rfl, rfl, rfl, rfl⟩
  · exact .inr ⟨rfl, rfl, rfl, rfl, rfl, rfl, rfl⟩

/-- One of these fields is kept by every instruction but the states `l` that write it. -/
theorem exec_keeps {α : Type} {l : List Step} (field : State → α) (h : exec i s = .next t)
    (hfired : ∀ {n}, n ∉ l → field (s.fired n) = field s) (hsame : s.SameControls t → field t = field s)
    (hi : i ∉ l.map Step.instr) : field t = field s := by
  rcases fired_or_sameControls h with ⟨n, rfl, rfl⟩ | h
  · exact hfired (not_mem_of_instr hi)
  · exact hsame h

/-- `data` is written by the four data-write states and by the address bytes (R45, R105). -/
theorem exec_data (h : exec i s = .next t) (hi : i ∉ [Instr.p3AddrW, .p4Reg, .w5Value, .r2AddrR])
    (ha : ∀ a, i ≠ .slaW a ∧ i ≠ .slaR a) : t.data = s.data := by
  rcases exec_cases h with hc | ⟨⟨a, hsla⟩, -⟩ | ⟨n, rfl, rfl⟩ | ⟨f, want, rfl⟩ | ⟨-, f, want, rfl⟩
  · exact (exec_command_frame h hc).2.1
  · exact absurd hsla (not_or.2 (ha a))
  · exact fired_data s (not_mem_of_instr hi)
  · rfl
  · rfl

/-- `cmd` and `fault` are the host's to change (R11, R19). -/
theorem exec_cmd_fault (h : exec i s = .next t) (hc : isCommand i = false) : t.cmd = s.cmd ∧ t.fault = s.fault := by
  rcases exec_cases h with hc' | ⟨-, v, rfl⟩ | ⟨n, rfl, rfl⟩ | ⟨f, want, rfl⟩ | ⟨-, f, want, rfl⟩
  · simp [hc] at hc'
  · exact ⟨rfl, rfl⟩
  · exact ⟨fired_cmd s n, fired_fault s n⟩
  · exact ⟨rfl, rfl⟩
  · exact ⟨rfl, rfl⟩

/-- The engine writes `buf` in the data reads, and forgets it where a wait aborts (R106, R204). -/
theorem exec_buf (h : exec i s = .next t)
    (hi : i ∉ [Instr.s1Read, .s2Read0, .s2Read1, .snStreamRead, .snTailReadA, .snTailReadB, .snTailReadC])
    (hc : isCommand i = false) :
    t.buf = s.buf ∨ (s.Spends i ∧ t.step = .idle ∧ t.buf = List.replicate s.buf.length .unspecified) := by
  rcases exec_cases h with hc' | ⟨-, v, rfl⟩ | ⟨n, rfl, rfl⟩ | ⟨f, want, rfl⟩ | ⟨hspends, f, want, rfl⟩
  · simp [hc] at hc'
  · exact .inl rfl
  · exact .inl (by simp [fired_buf, readsData_eq_false (not_mem_of_instr hi)])
  · exact .inl rfl
  · exact .inr ⟨hspends, rfl, List.map_const' ..⟩

/-- The engine writes `status` and `done` where a command completes or a wait aborts (R93, R204). -/
theorem exec_result (h : exec i s = .next t) (hi : i ∉ [Instr.w7WaitEnd, .s1Read, .s2Read1, .snTailReadC])
    (hc : isCommand i = false) :
    (t.status = s.status ∧ t.done = s.done) ∨ (s.Spends i ∧ t.step = .idle ∧ t.done = true) := by
  rcases exec_cases h with hc' | ⟨-, v, rfl⟩ | ⟨n, rfl, rfl⟩ | ⟨f, want, rfl⟩ | ⟨hspends, f, want, rfl⟩
  · simp [hc] at hc'
  · exact .inl ⟨rfl, rfl⟩
  · exact .inl (fired_result s n (completes_eq_false (not_mem_of_instr hi)))
  · exact .inl ⟨rfl, rfl⟩
  · exact .inr ⟨hspends, rfl, rfl⟩

end

/-- Settles O29, register by register: the sequencer states change a register only where they write it, and what a command
word, an address byte or an unwanted sample can do is said once above. -/
theorem frameOfEveryInstruction : Obligations.FrameOfEveryInstruction := by
  intro i s t h
  refine ⟨fun hi => ⟨exec_keeps State.ackEnable h (fired_ackEnable s) (·.ackEnable) hi,
      exec_keeps State.ackPolicy h (fired_ackPolicy s) (·.ackPolicy) hi⟩,
    exec_keeps State.pos h (fired_pos s) (·.pos), exec_keeps State.start h (fired_start s) (·.start),
    exec_keeps State.stop h (fired_stop s) (·.stop), exec_keeps State.idx h (fired_idx s) (·.idx),
    exec_keeps State.flags h (fired_flags s) (·.flags), exec_data h, exec_cmd_fault h, exec_buf h, exec_result h,
    fun hc => (exec_command_frame h hc).2.2, fun hi => ?idle, fun a ha => ?addressByte,
    fun a r v x hi => exec_illegal hi h, fun hc hs => ?running⟩
  case idle =>
    rw [hi] at h
    injection h with h
    exact h.symm
  case addressByte =>
    obtain ⟨v, rfl⟩ := exec_addressByte ha h
    exact ⟨rfl, rfl⟩
  case running =>
    rw [exec_command_running h hc hs]
    exact ⟨rfl, rfl, rfl, rfl, rfl, rfl⟩

end Sys2Proof.Machine
end

section
/-! SUPPORT. The slave registers and the trace: what no instruction touches behind the register interface, the slave
registers' canonical form, the fixture's store, and the event of each step. -/

namespace Sys2Proof.Machine

/-! ### What an instruction leaves behind the register interface (R35, R40) -/

/-- Settles O30: a command word writes the engine's record, a step that goes through and an unwanted sample the engine's
record and the register interface; none writes what lies behind it. -/
theorem engineLeavesMemory : Obligations.EngineLeavesMemory := by
  intro i s t h
  suffices hw : t.bus = s.bus ∧ t.params = s.params ∧ t.turns = s.turns ∧ t.tick = s.tick from
    ⟨fun a => by rw [hw.1], hw⟩
  rcases exec_cases h with hc | ⟨-, v, rfl⟩ | ⟨n, rfl, rfl⟩ | ⟨f, want, rfl⟩ | ⟨-, f, want, rfl⟩
  · rcases exec_command_cases hc h with ⟨-, rfl⟩ | ⟨-, ⟨a, r, v, rfl⟩ | ⟨a, r, k, rfl⟩ | rfl⟩ <;>
      exact ⟨rfl, rfl, rfl, rfl⟩
  · exact ⟨rfl, rfl, rfl, rfl⟩
  · exact ⟨fired_bus s n, fired_params s n, fired_turns s n, fired_tick s n⟩
  · exact ⟨rfl, rfl, rfl, rfl⟩
  · exact ⟨rfl, rfl, rfl, rfl⟩

/-- The engine, the host, reset and the platform leave the slave registers, and the environment keeps their form. -/
theorem memoryWf_keptByTurns : KeptByTurns fun s => Memory.wf s.bus.mem where
  script _ _ h := h
  env _ _ _ _ _ _ _ hwf h := hwf h
  fired s h := (fired_bus s s.step).symm ▸ h
  stayed _ _ _ _ _ h := h
  aborted _ _ _ _ h := h
  marked _ _ h := h
  beginWrite _ _ _ _ _ h := h
  beginRead _ _ _ _ _ _ h := h
  rejected _ _ h := h
  reset _ h := h
  platform _ _ _ _ h := h

/-- Settles O42: the form is kept by each agent's turn. -/
theorem memoryStaysCanonical : Obligations.MemoryStaysCanonical :=
  fun _ _ hs h => memoryWf_keptByTurns.step hs h

/-- A cell by the register's number. -/
theorem slaveCell_ofNat (slave : SlaveAddr) {ptr : Nat} (h : ptr < 256) :
    slaveCell slave (BitVec.ofNat 8 ptr) = 256 * slave.toNat + ptr := by
  rw [slaveCell, BitVec.toNat_ofNat, Nat.mod_eq_of_lt h]

/-- A write changes the cell written and no other. -/
theorem Memory.read_write {m : Memory} (h : Memory.wf m) (a c : Nat) (v : Byte) :
    Memory.read a (Memory.write c v m) = if a = c then v else Memory.read a m := by
  split
  · rename_i hac
    exact hac ▸ Memory.read_write_same h.1 a v
  · rename_i hac
    exact Memory.read_write_other hac v

/-- Settles O54: the reaction is one write of the selected register's cell. -/
theorem conformingStore : Obligations.ConformingStore := by
  intro s b a hwf hphase hptr
  have hmem : (s.react (.dataWrite b)).bus.mem =
      s.bus.mem.write (slaveCell s.bus.slave (BitVec.ofNat 8 s.bus.ptr)) b := by
    simp only [State.react, State.busTransmit, hphase]
  rw [hmem, Memory.read_write hwf, slaveCell_ofNat s.bus.slave hptr]

/-! ### The event of a step that goes through (R41, R42) -/

/-- The event a step of `n` leaves when it goes through: a poll state's wanted sample, an emit state's operation, none
at `IDLE`. `fired_trace` ties it to `State.fired`. -/
def State.event (s : State) (n : Step) : Option Event :=
  match n with
  | .p2Start | .r1Restart => some (.bitSet .start)
  | .p3AddrW => some (.dataWrite (slaWrite s.cmd.slave))
  | .p4Reg => some (.dataWrite s.cmd.reg)
  | .w5Value => some (.dataWrite s.cmd.value)
  | .r2AddrR => some (.dataWrite (slaRead s.cmd.slave))
  | .w6Stop | .s1Stop | .s2Stop | .snTailStop => some (.bitSet .stop)
  | .r0AckSet => some (.bitSet .ackEnable)
  | .r0PosClr => some (.bitClear .pos)
  | .s1AckClr | .s2AckClr | .snTailAckClr => some (.bitClear .ackEnable)
  | .s2PosSet => some (.bitSet .pos)
  | .s1AddrClr | .s2AddrClr | .snAddrClr => some .addrClear
  | .s1Read | .s2Read0 | .s2Read1 | .snStreamRead | .snTailReadA | .snTailReadB | .snTailReadC =>
    some (.dataRead s.data)
  | n => (pollOf s.params n).map fun x => .flagRead x.1 x.2

section
variable {s : State} {n : Step}

theorem fired_trace {e : Event} (h : s.event n = some e) : (s.fired n).trace = s.trace ++ [e] := by
  cases n <;> cases h <;> rfl

/-- The event of a poll state is its wanted sample. -/
theorem event_poll {f : Flag} {want : Bool} (h : pollOf s.params n = some (f, want)) :
    s.event n = some (.flagRead f want) := by
  cases n <;> cases h <;> rfl

/-- The event of an emit state is an operation, not a sample. -/
theorem event_emit (h : pollOf s.params n = none) (hi : n ≠ .idle) :
    ∃ e, s.event n = some e ∧ ∀ f a, e ≠ .flagRead f a := by
  cases n <;> simp only [pollOf, reduceCtorEq, ne_eq, not_true_eq_false] at h hi <;>
    exact ⟨_, rfl, fun _ _ => nofun⟩

end

theorem isCommand_decodeCmd (w : CmdWord) : isCommand (decodeCmd w) = true := by
  unfold decodeCmd
  repeat' split
  all_goals rfl

/-- Settles O31: each of the three ends of a wait logs the sample it took, and an emit state its operation. -/
theorem oneEventPerStep : Obligations.OneEventPerStep := by
  refine ⟨fun n s t hi h => ?_, fun w s t h => (exec_command_frame h (isCommand_decodeCmd w)).2.2⟩
  rcases hp : pollOf s.params n with _ | ⟨f, want⟩
  · rw [exec_emit hp] at h
    injection h with h
    obtain ⟨e, he, hop⟩ := event_emit hp hi
    exact ⟨e, h ▸ fired_trace he, hop⟩
  · obtain ⟨k, hk, hfired⟩ := exec_poll hp
    rw [hk] at h
    injection h with h
    refine ⟨_, ?_, rfl⟩
    rcases wait_cases s f want k with ⟨hf, hw⟩ | ⟨hf, -, hw⟩ | ⟨hf, -, hw⟩ <;> rw [← h, hw]
    · rw [hfired, fired_trace (event_poll hp), hf]
    · rw [Bool.eq_not.2 hf]; rfl
    · rw [Bool.eq_not.2 hf]; rfl

end Sys2Proof.Machine
end

section
/-! SUPPORT. A running command follows its script: each step that goes through performs the script's next symbol. -/

namespace Sys2Proof.Machine

/-! ### Spelling a script -/

theorem spells_append {l l' : List Atom} {tr tr' : List Event} (h : Spells l tr) (h' : Spells l' tr') :
    Spells (l ++ l') (tr ++ tr') := by
  induction l generalizing tr with
  | nil => rw [show tr = [] from h]; exact h'
  | cons a l ih =>
    cases a with
    | op e =>
      obtain ⟨rest, rfl, hrest⟩ := h
      exact ⟨rest ++ tr', rfl, ih hrest⟩
    | poll f want =>
      obtain ⟨k, rest, rfl, hrest⟩ := h
      exact ⟨k, rest ++ tr', by simp, ih hrest⟩

/-- The symbol of the script that ends with an event: a wait ends with its sample, an operation is its event. -/
def Event.atom : Event → Atom
  | .flagRead f want => .poll f want
  | e => .op e

/-- The failed samples of a wait and the event of its step spell one symbol (R124). -/
theorem spells_event {s : State} {n : Step} {e : Event} (h : s.event n = some e) :
    Spells [e.atom] (pending s.params s.polls n ++ [e]) := by
  rcases hp : pollOf s.params n with _ | ⟨f, want⟩
  · have hi : n ≠ .idle := by rintro rfl; cases h
    obtain ⟨e', he', hop⟩ := event_emit hp hi
    obtain rfl : e = e' := Option.some.inj (h.symm.trans he')
    have hatom : e.atom = .op e := by
      cases e with
      | flagRead f a => exact absurd rfl (hop f a)
      | _ => rfl
    rw [hatom, pending, hp]
    exact ⟨[], rfl, rfl⟩
  · obtain rfl : Event.flagRead f want = e := Option.some.inj ((event_poll hp).symm.trans h)
    rw [pending, hp]
    exact ⟨s.polls, [], rfl, rfl⟩

/-- A wait that has just begun has no failed sample. -/
theorem pending_zero (p : Params) (n : Step) : pending p 0 n = [] := by
  unfold pending
  split <;> rfl

theorem pending_succ {p : Params} {n : Step} {f : Flag} {want : Bool} (h : pollOf p n = some (f, want)) (k : Nat) :
    pending p (k + 1) n = pending p k n ++ [.flagRead f !want] := by
  simp [pending, h, List.replicate_succ']

/-! ### The script as the read buffer fills (R166, R175, R188) -/

/-- A cell that holds a byte is one data read of the script. -/
theorem rxAt_set_same {buf : List BufCell} {i : Nat} (h : i < buf.length) (b : Byte) :
    rxAt (buf.set i (.byte b)) i = [.op (.dataRead b)] := by
  simp [rxAt, h]

/-- Filling another cell changes no earlier data read. -/
theorem rxAt_set_other {buf : List BufCell} {i k : Nat} (h : k ≠ i) (c : BufCell) :
    rxAt (buf.set k c) i = rxAt buf i := by
  simp [rxAt, List.getElem?_set_ne h]

theorem streamScript_set {buf : List BufCell} {k : Nat} (c : BufCell) :
    ∀ {n : Nat}, n ≤ k → streamScript (buf.set k c) n = streamScript buf n
  | 0, _ => rfl
  | n + 1, h => by rw [streamScript, streamScript, streamScript_set c (by omega), rxAt_set_other (by omega)]

/-- The script up to the loop's next state, by the bytes it has streamed (R177, R179). -/
theorem scriptBefore_streamOrTail (p : Params) (c : Command) (buf : List BufCell) {i : Nat} (h : i ≤ c.length - 3) :
    scriptBefore p c buf i (streamOrTail i c.length) = headScript p c ++ .op .addrClear :: streamScript buf i := by
  rcases streamOrTail_cases i c.length with ⟨-, hp⟩ | ⟨hi, hp⟩ <;> rw [hp]
  · rfl
  · rw [le_antisymm h (not_lt.1 hi)]; rfl

theorem scriptBefore_firstOfPath (p : Params) (c : Command) (buf : List BufCell) (i : Nat) :
    scriptBefore p c buf i (firstOfPath c.length) = headScript p c := by
  rcases firstOfPath_cases c.length with ⟨-, h⟩ | ⟨-, h⟩ | ⟨-, -, h⟩ <;> rw [h] <;> rfl

theorem scriptBefore_afterSelect (p : Params) (c : Command) (buf : List BufCell) (i : Nat) :
    scriptBefore p c buf i (afterSelect p c) = selectScript c := by
  rcases afterSelect_cases p c with ⟨-, h⟩ | ⟨-, -, h⟩ | ⟨-, hr, h⟩ <;> rw [h]
  · rfl
  · rfl
  · simp [scriptBefore, initScript, hr]

/-- A step that goes through performs the next symbol of the command's script. -/
theorem scriptBefore_fired {s : State} {e : Event} (h : s.CommandOk) (he : s.event s.step = some e) :
    scriptBefore s.params s.cmd (s.fired s.step).buf (s.fired s.step).idx (s.fired s.step).step =
      scriptBefore s.params s.cmd s.buf s.idx s.step ++ [e.atom] := by
  obtain ⟨-, hpath, hindex, hlen, -⟩ := h
  unfold State.PathOk at hpath
  unfold State.IndexOk at hindex
  cases hn : s.step <;> rw [hn] at hpath hindex he <;> cases he
  case p5WaitBtf => exact scriptBefore_afterSelect s.params s.cmd s.buf s.idx
  case r0PosClr =>
    obtain ⟨-, -, hr⟩ := hpath
    simp [scriptBefore, State.fired, initScript, hr, Event.atom]
  case r1Restart | r1WaitSb | r2AddrR => simp [scriptBefore, State.fired, restartScript, Event.atom]
  case r2WaitAddr =>
    refine (scriptBefore_firstOfPath s.params s.cmd s.buf s.idx).trans ?_
    simp [scriptBefore, headScript, restartScript, Event.atom]
  case w7WaitEnd =>
    simp [scriptBefore, State.fired, wholeScript, tailScript, Event.atom, show s.cmd.dir = .write from hpath]
  case s1Read | s2Read0 | s2Read1 =>
    obtain ⟨hd, hl⟩ := hpath
    simp (disch := omega) [scriptBefore, State.fired, wholeScript, hd, hl, rxAt_set_same, rxAt_set_other, Event.atom]
  case snAddrClr => exact scriptBefore_streamOrTail s.params s.cmd s.buf (Nat.zero_le _)
  case snStreamRead =>
    refine (scriptBefore_streamOrTail s.params s.cmd _ hindex).trans ?_
    simp (disch := omega) [scriptBefore, State.fired, streamScript, streamScript_set, rxAt_set_same, Event.atom]
  case snTailReadA | snTailReadB | snTailReadC =>
    obtain ⟨hd, hl⟩ := hpath
    have h1 : s.cmd.length ≠ 1 := by omega
    have h2 : s.cmd.length ≠ 2 := by omega
    simp (disch := omega) [scriptBefore, State.fired, wholeScript, drainScript, hd, h1, h2, streamScript_set,
      rxAt_set_same, rxAt_set_other, Event.atom]
  case s1AckClr | s1AddrClr | s1Stop | s1WaitRxne => simp [scriptBefore, State.fired, oneScript, Event.atom]
  case s2PosSet | s2AddrClr | s2AckClr | s2WaitBtf | s2Stop => simp [scriptBefore, State.fired, twoScript, Event.atom]
  case snStreamWait | snTailWaitBtf | snTailAckClr | snTailStop | snTailWaitIdle | snTailWaitRxne =>
    simp [scriptBefore, State.fired, Event.atom]
  all_goals rfl

/-! ### A run on its script -/

section
variable {s t : State} {before : List Event}

theorem fired_polls {e : Event} (h : s.event s.step = some e) : (s.fired s.step).polls = 0 := by
  cases hn : s.step <;> rw [hn] at h <;> cases h <;> rfl

/-- A step that goes through stays on the script: the wait's failed samples and its event are the next symbol. -/
theorem onScript_fired (h : s.CommandOk) (hi : s.step ≠ .idle) (hs : s.OnScript before) :
    (s.fired s.step).OnScript before := by
  obtain ⟨e, he⟩ : ∃ e, s.event s.step = some e := by
    rcases hp : pollOf s.params s.step with _ | ⟨f, want⟩
    · obtain ⟨e, he, -⟩ := event_emit hp hi
      exact ⟨e, he⟩
    · exact ⟨_, event_poll hp⟩
  obtain ⟨tr, htrace, hspells⟩ := hs
  refine ⟨tr ++ (pending s.params s.polls s.step ++ [e]), ?_, ?_⟩
  · simp [fired_trace he, htrace, fired_polls he, pending_zero]
  · rw [fired_params, fired_cmd, scriptBefore_fired h he]
    exact spells_append hspells (spells_event he)

/-- A failed sample that leaves budget is pending (R91). -/
theorem onScript_stayed {f : Flag} {want : Bool} (hp : pollOf s.params s.step = some (f, want))
    (hs : s.OnScript before) : (s.stayed f want).OnScript before := by
  obtain ⟨tr, htrace, hspells⟩ := hs
  refine ⟨tr, ?_, hspells⟩
  change s.trace ++ [.flagRead f !want] = before ++ tr ++ pending s.params (s.polls + 1) s.step
  rw [pending_succ hp, htrace, List.append_assoc]

/-- A command runs in `s` and has followed its script since the trace was `before`. -/
structure State.Running (before : List Event) (s : State) : Prop where
  command : s.CommandOk
  busy : s.step ≠ .idle
  script : s.OnScript before

/-- What a turn may make of such a run: it goes on or completes on the script, or an abort leaves the old trace and one
failed sample of the present wait. -/
def State.ScriptGoesOn (before : List Event) (s t : State) : Prop :=
  (t.step ≠ .idle ∨ t.status = .ok → t.OnScript before) ∧
  (t.step = .idle → t.status ≠ .ok →
    ∃ f want, pollOf s.params s.step = some (f, want) ∧ t.trace = s.trace ++ [.flagRead f !want])

/-- The environment touches neither the command registers nor the trace. -/
theorem State.Running.withEnv (h : s.Running before) (fl : Flags) (st sp : Bool) (d : Byte) (b : Bus) (k : Nat) :
    State.Running before { s.withEnv fl st sp d b with tick := k } :=
  ⟨⟨h.command.result, h.command.path, h.command.index, h.command.buffer⟩, h.busy, h.script⟩

theorem State.Running.scriptGoesOn (h : t.Running before) : s.ScriptGoesOn before t :=
  ⟨fun _ => h.script, fun hi => absurd hi h.busy⟩

theorem State.Running.engineTurn (h : s.Running before) (ht : s.engineTurn = .next t) : s.ScriptGoesOn before t := by
  rcases engineTurn_cases ht with rfl | ⟨f, want, hp, -, ⟨-, rfl⟩ | ⟨-, rfl⟩⟩
  · refine ⟨fun _ => onScript_fired h.command h.busy h.script, fun hi hok => ?_⟩
    by_cases hc : completes s.step = true
    · exact absurd (fired_completes s s.step hc).1 hok
    · exact absurd hi (fired_step_ne_idle s s.step h.busy (by simpa using hc))
  · exact ⟨fun _ => onScript_stayed hp h.script, fun hi => absurd hi h.busy⟩
  · exact ⟨fun h => absurd h (by simp [State.aborted, (abortClass_ne f).1]), fun _ _ => ⟨f, want, hp, rfl⟩⟩

theorem State.Running.conformingTurn (h : s.Running before) (ht : s.conformingTurn = .next t) :
    s.ScriptGoesOn before t := by
  obtain ⟨u, fl, st, sp, d, b, hu, rfl, -⟩ := conformingTurn_cases ht
  suffices s.ScriptGoesOn before u from this
  rcases busPresent_cases s with hs | ⟨-, -, hs⟩ <;> rw [hs] at hu
  · exact h.engineTurn hu
  · exact (h.withEnv s.flags s.start s.stop (Config.noByte s.tick) s.bus (s.tick + 1)).engineTurn hu

/-- A word issued while a command runs is ignored (R215). -/
theorem State.Running.issueTurn {w : CmdWord} (h : s.Running before) (ht : s.issueTurn w = .next t) :
    s.ScriptGoesOn before t := by
  have hmark := exec_command_running ht (isCommand_decodeCmd w) h.busy
  subst hmark
  exact ⟨fun _ => h.script, fun hi => absurd hi h.busy⟩

end

/-- Settles O44: on an engine's turn the step performs the script's next symbol, counts a failed sample or aborts; the
other agents touch neither the trace nor the command registers while a command runs. -/
theorem runFollowsScript : Obligations.RunFollowsScript := by
  intro before s t hok hi hs hreset h
  have hrun : s.Running before := ⟨hok, hi, hs⟩
  suffices s.ScriptGoesOn before t from this
  rcases step_cases h with ⟨-, h⟩ | ⟨turn, rest, s', hturns, hs', h⟩
  · obtain ⟨fl, st, sp, d, b, he, -⟩ := envFree_cases s
    rw [he] at h
    exact (hrun.withEnv fl st sp d b (s.tick + 1)).engineTurn h
  · have hrun' : s'.Running before :=
      hs' ▸ ⟨commandOk_keptByTurns.script s rest hok, hi, hs⟩
    have hback : s'.ScriptGoesOn before t → s.ScriptGoesOn before t := hs' ▸ id
    cases turn with
    | engine => exact hback (hrun'.engineTurn h)
    | conforming => exact hback (hrun'.conformingTurn h)
    | env m => exact h ▸ (hrun'.withEnv _ _ _ _ _ s'.tick).scriptGoesOn
    | issue w => exact hback (hrun'.issueTurn h)
    | reset => exact absurd (by rw [hturns]; rfl) hreset
    | platform a p => exact absurd h.1 hi
    | readBuf i => exact h ▸ hrun'.scriptGoesOn
    | readStatus => exact h ▸ hrun'.scriptGoesOn

end Sys2Proof.Machine
end

section
/-! SUPPORT. Runs over scripted turns, and one turn of the engine against the conforming controller, whose reaction does
not ask for the turns or the trace. -/

namespace Sys2Proof.Machine

/-! ### Runs over scripted turns -/

/-- The turns `l` take the machine from `s` to `t`, whatever turns are scripted after them and whatever has happened
before: of `s` and `t`, the turns and the trace do not count. -/
def State.RunsTo (s : State) (l : List Turn) (t : State) : Prop :=
  ∀ rest tr, ∃ tr', core.run l.length { s with turns := l ++ rest, trace := tr } =
    .next { t with turns := rest, trace := tr' }

theorem core_run_succ {k : Nat} {s u : State} (h : step s = .next u) : core.run (k + 1) s = core.run k u := by
  have h' : core.step s = .next u := h
  simp only [Host.Core.run, h']

theorem core_run_add {j : Nat} (k : Nat) {s u : State} (h : core.run j s = .next u) :
    core.run (j + k) s = core.run k u := by
  induction j generalizing s with
  | zero =>
    injection h with h
    rw [Nat.zero_add, h]
  | succ j ih =>
    rw [Nat.add_right_comm]
    simp only [Host.Core.run] at h ⊢
    split at h
    · exact ih h
    · cases h
    · cases h

section
variable {s u t : State} {l l' : List Turn}

theorem State.RunsTo.trans (h : s.RunsTo l u) (h' : u.RunsTo l' t) : s.RunsTo (l ++ l') t := by
  intro rest tr
  obtain ⟨tr', h⟩ := h (l' ++ rest) tr
  obtain ⟨tr'', h'⟩ := h' rest tr'
  refine ⟨tr'', ?_⟩
  rw [List.length_append, List.append_assoc, core_run_add _ h, h']

theorem State.RunsTo.cons {turn : Turn} (h : s.RunsTo [turn] u) (h' : u.RunsTo l t) : s.RunsTo (turn :: l) t :=
  h.trans h'

theorem State.RunsTo.refl (s : State) : s.RunsTo [] s := fun _ tr => ⟨tr, rfl⟩

/-- One turn. -/
theorem runsTo_take {turn : Turn}
    (h : ∀ rest tr, ∃ tr', State.take { s with turns := rest, trace := tr } turn =
      .next { t with turns := rest, trace := tr' }) : s.RunsTo [turn] t := by
  intro rest tr
  obtain ⟨tr', h⟩ := h rest tr
  exact ⟨tr', core_run_succ (k := 0) h⟩

/-- Of the end of a run, too, the turns and the trace do not count. -/
theorem State.RunsTo.of_eq (h : s.RunsTo l u) (hu : { u with turns := t.turns, trace := t.trace } = t) :
    s.RunsTo l t := by
  intro rest tr
  obtain ⟨tr', h⟩ := h rest tr
  exact ⟨tr', by rw [h, ← hu]⟩

/-- The run from a state in which these turns are scripted and no other. -/
theorem State.RunsTo.run {k : Nat} (h : s.RunsTo l t) (hs : s.turns = l) (hk : l.length = k) :
    ∃ tr, core.run k s = .next { t with turns := [], trace := tr } := by
  obtain ⟨tr, h⟩ := h [] s.trace
  rw [List.append_nil, ← hs] at h
  exact ⟨tr, hk ▸ hs ▸ h⟩

end

/-! ### One turn of the engine against the conforming controller -/

section
variable (s : State) (rest : List Turn) (tr : List Event)

theorem busReceive_with :
    State.busReceive { s with turns := rest, trace := tr } = { s.busReceive with turns := rest, trace := tr } := by
  simp only [State.busReceive, State.acknowledge]
  split_ifs <;> rfl

theorem busAddress_with (b : Byte) :
    State.busAddress { s with turns := rest, trace := tr } b = { s.busAddress b with turns := rest, trace := tr } := by
  simp only [State.busAddress]
  split_ifs <;> rfl

theorem busStopAsked_with :
    State.busStopAsked { s with turns := rest, trace := tr } = { s.busStopAsked with turns := rest, trace := tr } := by
  have hheld : State.busHeld { s with turns := rest, trace := tr } = s.busHeld := rfl
  simp only [State.busStopAsked, hheld]
  cases s.bus.phase
  case receiving => cases s.busHeld <;> rfl
  all_goals rfl

theorem busIdleTime_with (f : Flag) :
    State.busIdleTime { s with turns := rest, trace := tr } f =
      { s.busIdleTime f with turns := rest, trace := tr } := by
  have hheld : State.busHeld { s with turns := rest, trace := tr } = s.busHeld := rfl
  simp only [State.busIdleTime, hheld, busReceive_with]
  cases s.bus.phase
  case select => cases f <;> rfl
  case receiving => cases s.busHeld <;> rfl
  all_goals rfl

/-- The controller's reaction does not ask for the turns or the trace. -/
theorem react_with (e : Event) :
    State.react { s with turns := rest, trace := tr } e = { s.react e with turns := rest, trace := tr } := by
  cases e with
  | bitSet b =>
    cases b with
    | stop => exact busStopAsked_with s rest tr
    | start | ackEnable | pos => rfl
  | bitClear b => rfl
  | flagRead f a => exact busIdleTime_with s rest tr f
  | dataWrite v =>
    simp only [State.react, State.busTransmit, busAddress_with]
    cases s.bus.phase <;> rfl
  | dataRead v =>
    simp only [State.react, State.busTaken]
    cases s.bus.shift <;> rfl
  | addrClear =>
    simp only [State.react]
    split_ifs <;> rfl
end

section
variable {s t : State} {n : Step} {e : Event} {f : Flag} {want : Bool}

theorem fired_with (h : s.event n = some e) (rest : List Turn) (tr : List Event) :
    State.fired { s with turns := rest, trace := tr } n = { s.fired n with turns := rest, trace := tr ++ [e] } := by
  cases n <;> cases h <;> rfl

/-- A state that reads data is an emit state, and its event is the read. -/
theorem pollOf_of_readsData (p : Params) (h : readsData n = true) : pollOf p n = none := by
  cases n <;> simp only [readsData, Bool.false_eq_true] at h <;> rfl

theorem event_read (h : readsData n = true) : s.event n = some (.dataRead s.data) := by
  cases n <;> simp only [readsData, Bool.false_eq_true] at h <;> rfl

/-- The controller reacts to the one event of the engine's step. -/
theorem conformingTurn_of_engineTurn (ht : s.busPresent.engineTurn = .next t) (he : t.trace = s.trace ++ [e]) :
    s.conformingTurn = .next (t.react e) := by
  simp [State.conformingTurn, ht, he]

theorem exec_fired (h : ∀ f want, pollOf s.params n = some (f, want) → s.flags.get f = want) :
    exec n.instr s = .next (s.fired n) := by
  rcases hp : pollOf s.params n with _ | ⟨f, want⟩
  · exact exec_emit hp
  · obtain ⟨k, hk, hfired⟩ := exec_poll hp
    rw [hk, wait_hit s k (h f want hp), hfired]

/-- A turn of the engine that leaves one event, with its byte unread where it reads one, and the controller's reaction
to the event. -/
theorem runsTo_conforming (hr : readsData s.step = true → s.flags.rxNotEmpty = true)
    (h : ∀ rest tr, State.engineTurn { s with turns := rest, trace := tr } =
      .next { t with turns := rest, trace := tr ++ [e] }) : s.RunsTo [.conforming] (t.react e) := by
  refine runsTo_take fun rest tr => ⟨tr ++ [e], ?_⟩
  have hpresent : State.busPresent { s with turns := rest, trace := tr } = { s with turns := rest, trace := tr } := by
    by_cases h : readsData s.step = true
    · exact busPresent_unread (hr h)
    · exact busPresent_noRead (by simpa using h)
  refine (conformingTurn_of_engineTurn (by rw [hpresent, h]) rfl).trans ?_
  rw [react_with]

/-- A step that goes through. -/
theorem runsTo_fired (n : Step) (hn : s.step = n) (he : s.event n = some e)
    (hp : ∀ f want, pollOf s.params n = some (f, want) → s.flags.get f = want)
    (hr : readsData n = true → s.flags.rxNotEmpty = true) : s.RunsTo [.conforming] ((s.fired n).react e) := by
  subst hn
  refine runsTo_conforming hr fun rest tr => ?_
  rw [← fired_with he]
  exact exec_fired hp

/-- A wait whose sample shows the wanted value. -/
theorem runsTo_poll (n : Step) (hn : s.step = n) (hp : pollOf s.params n = some (f, want)) (hf : s.flags.get f = want)
    (ht : (s.fired n).react (.flagRead f want) = t) : s.RunsTo [.conforming] t := by
  refine ht ▸ runsTo_fired n hn (event_poll hp) (fun f' want' h => ?_) fun h => ?_
  · obtain ⟨rfl, rfl⟩ : f = f' ∧ want = want' := by simpa [hp] using h
    exact hf
  · rw [pollOf_of_readsData s.params h] at hp
    cases hp

/-- An emit state that reads no data. -/
theorem runsTo_emit (n : Step) (hn : s.step = n) (hp : pollOf s.params n = none) (hr : readsData n = false)
    (he : s.event n = some e) (ht : (s.fired n).react e = t) : s.RunsTo [.conforming] t :=
  ht ▸ runsTo_fired n hn he (by simp [hp]) (by simp [hr])

/-- A data read that finds an unread byte. -/
theorem runsTo_read (n : Step) (hn : s.step = n) (hr : readsData n = true) (hf : s.flags.rxNotEmpty = true)
    (ht : (s.fired n).react (.dataRead s.data) = t) : s.RunsTo [.conforming] t :=
  ht ▸ runsTo_fired n hn (event_read hr) (by simp [pollOf_of_readsData s.params hr]) fun _ => hf

/-- With no budget an unwanted sample leaves the wait as it is, and the controller goes on (R200). -/
theorem runsTo_stayed (n : Step) (hn : s.step = n) (hp : pollOf s.params n = some (f, want))
    (hf : s.flags.get f = !want) (hb : s.params.pollBudget = none)
    (ht : (s.stayed f want).react (.flagRead f !want) = t) : s.RunsTo [.conforming] t := by
  subst hn ht
  refine runsTo_conforming (fun hr => ?_) fun rest tr => ?_
  · rw [pollOf_of_readsData s.params hr] at hp
    cases hp
  · obtain ⟨k, hk, -⟩ := exec_poll (s := { s with turns := rest, trace := tr }) hp
    refine hk.trans ?_
    rw [wait_stay _ k (by simp [hf]) (by simp [hb])]
    rfl

end
end Sys2Proof.Machine
end

section
/-! SUPPORT. The host's words and the conforming fixture at the grain of a frame: what the controller makes of each operation
(R58 to R65), the bytes of a burst, and the nine turns both commands share. -/

namespace Sys2Proof.Machine

/-! ### The command words of the host (R71, R95) -/

theorem extractLsb'_append_middle {k m w : Nat} (x : BitVec k) (y : BitVec m) (z : BitVec w) :
    (x ++ y ++ z).extractLsb' w m = y := by
  rw [BitVec.extractLsb'_append_eq_of_le le_rfl, Nat.sub_self, BitVec.extractLsb'_append_eq_right]

section
variable (a : SlaveAddr) (r v : Byte) (n : LengthField) (hi : BitVec 16) (d : BitVec 1)

/-! The fields every command word has, and its upper half (R71). -/

theorem dir_append : CmdWord.dir (hi ++ r ++ a ++ d) = d.getLsbD 0 := by
  simp only [CmdWord.dir, BitVec.getLsbD_append, Nat.zero_lt_one, if_true]

theorem slave_append : CmdWord.slave (hi ++ r ++ a ++ d) = a := extractLsb'_append_middle _ a d

theorem reg_append : CmdWord.reg (hi ++ r ++ a ++ d) = r :=
  (BitVec.extractLsb'_append_eq_of_le (by decide)).trans (extractLsb'_append_middle _ r a)

/-- The upper half of a command word: what a write's value and reserved bits, and a read's length, are taken from. -/
theorem upper_append (start len : Nat) (h : 16 ≤ start) :
    (hi ++ r ++ a ++ d : CmdWord).extractLsb' start len = hi.extractLsb' (start - 16) len := by
  rw [show start - 16 = start - 1 - 7 - 8 by omega]
  exact (BitVec.extractLsb'_append_eq_of_le (by omega)).trans
    ((BitVec.extractLsb'_append_eq_of_le (by omega)).trans (BitVec.extractLsb'_append_eq_of_le (by omega)))

/-- A write word decodes to its write, which its issue begins (R86, R95). -/
theorem issueTurn_encodeWrite {s : State} (hs : s.step = .idle) :
    s.issueTurn (encodeWrite a r v 0) = .next (s.beginWrite a r v) := by
  have hdir : CmdWord.dir (encodeWrite a r v 0) = false := dir_append a r _ 0#1
  have hslave : CmdWord.slave (encodeWrite a r v 0) = a := slave_append a r _ 0#1
  have hreg : CmdWord.reg (encodeWrite a r v 0) = r := reg_append a r _ 0#1
  have hvalue : CmdWord.value (encodeWrite a r v 0) = v :=
    (upper_append a r _ 0#1 16 8 le_rfl).trans BitVec.extractLsb'_append_eq_right
  have hreserved : CmdWord.reserved (encodeWrite a r v 0) = 0 :=
    (upper_append a r _ 0#1 24 8 (by decide)).trans BitVec.extractLsb'_append_eq_left
  rw [State.issueTurn, decodeCmd, if_pos hdir, if_neg (not_not.2 hreserved), hslave, hreg, hvalue]
  exact congrArg _ (issued_idle s hs)

/-- A read word that asks for a byte or more decodes to one of the three reads, and its issue begins the read of its
length (R86, R95). -/
theorem issueTurn_encodeRead {s : State} (hs : s.step = .idle) (hn : n ≠ 0) :
    s.issueTurn (encodeRead a r n) = .next (s.beginRead a r n.toNat) := by
  have hdir : CmdWord.dir (encodeRead a r n) = true := dir_append a r n 1#1
  have hslave : CmdWord.slave (encodeRead a r n) = a := slave_append a r n 1#1
  have hreg : CmdWord.reg (encodeRead a r n) = r := reg_append a r n 1#1
  have hlength : CmdWord.length (encodeRead a r n) = n :=
    (upper_append a r n 1#1 16 16 le_rfl).trans BitVec.extractLsb'_eq_self
  rw [State.issueTurn, decodeCmd, if_neg (by simp [hdir]), hlength, if_neg hn, hslave, hreg]
  split_ifs with h1 h2
  · subst h1
    exact congrArg _ (issued_idle s hs)
  · subst h2
    exact congrArg _ (issued_idle s hs)
  · exact congrArg _ (issued_idle s hs)

end

/-! ### The fixture's operations at the grain of a frame (R58 to R65) -/

/-- The address bytes carry the slave and the direction. -/
theorem addressByte_fields (a : SlaveAddr) :
    (slaWrite a).extractLsb' 1 7 = a ∧ (slaWrite a).getLsbD 0 = false ∧
      (slaRead a).extractLsb' 1 7 = a ∧ (slaRead a).getLsbD 0 = true := by
  revert a
  decide

/-- A START or a repeated START has gone out. -/
def State.started (s : State) (symbol : Symbol) : State :=
  { s with
    start := false
    flags := { s.flags with busy := true, startSent := true, addrMatched := false }
    bus := { s.bus with phase := .started, wire := s.bus.wire ++ [symbol] } }

/-- Slave `a` has acknowledged its address in the write direction. -/
def State.addressedW (s : State) (a : SlaveAddr) : State :=
  { s with
    flags := { s.flags with addrMatched := true, txDir := true, txEmpty := true, btf := false }
    bus := { s.bus with phase := .select, slave := a, wire := s.bus.wire ++ [.byte (slaWrite a) true] } }

/-- Slave `a` has acknowledged its address in the read direction. -/
def State.addressedR (s : State) (a : SlaveAddr) : State :=
  { s with
    flags := { s.flags with addrMatched := true, txDir := false, btf := false, rxNotEmpty := false }
    bus := { s.bus with
      phase := .armed, slave := a, shift := none, wire := s.bus.wire ++ [.byte (slaRead a) true] } }

/-- The slave has sent `b`, acknowledged as `ack` says. -/
def Bus.after (bus : Bus) (b : Byte) (ackEnable ack : Bool) : Bus :=
  { bus with
    ptr := bus.ptr + 1, ackNext := ackEnable, phase := if ack then .receiving else .drained
    wire := bus.wire ++ [.byte b ack] }

section
variable {s : State}

/-- A START on an idle bus. -/
theorem react_start (h : s.bus.phase = .idle) : s.react (.bitSet .start) = s.started .start := by
  simp [State.react, State.busStart, State.started, State.onWire, h]

/-- A START inside a transaction. -/
theorem react_restart (h : s.bus.phase ≠ .idle) : s.react (.bitSet .start) = s.started .restart := by
  simp [State.react, State.busStart, State.started, State.onWire, h]

theorem react_slaWrite {a : SlaveAddr} (hp : s.bus.phase = .started) (ha : a ∈ s.bus.present) :
    s.react (.dataWrite (slaWrite a)) = s.addressedW a := by
  obtain ⟨hslave, hdir, -, -⟩ := addressByte_fields a
  have hpresent : s.bus.present.contains a = true := List.contains_iff_mem.2 ha
  simp only [State.react, State.busTransmit, hp, State.busAddress, hslave, hdir, hpresent, if_true]
  rfl

theorem react_slaRead {a : SlaveAddr} (hp : s.bus.phase = .started) (ha : a ∈ s.bus.present) :
    s.react (.dataWrite (slaRead a)) = s.addressedR a := by
  obtain ⟨-, -, hslave, hdir⟩ := addressByte_fields a
  have hpresent : s.bus.present.contains a = true := List.contains_iff_mem.2 ha
  simp only [State.react, State.busTransmit, hp, State.busAddress, hslave, hdir, hpresent, if_true, Bool.true_eq_false,
    if_false]
  rfl

/-- No time passes while the engine polls on an idle bus. -/
theorem react_flagRead_idle (h : s.bus.phase = .idle) (f : Flag) (a : Bool) : s.react (.flagRead f a) = s := by
  simp [State.react, State.busIdleTime, h]

section
variable {f : Flag} {a : Bool} {b : Byte} {ack : Bool} (hp : s.bus.phase = .receiving) (hb : s.bus.sends = b)
  (hack : s.acknowledge = ack)
include hp hb hack

/-- While the engine polls, a byte arrives; `data` held none. -/
theorem react_flagRead_data (hrx : s.flags.rxNotEmpty = false) (hstop : s.stop = false) :
    s.react (.flagRead f a) = { s with
      data := b, flags := { s.flags with rxNotEmpty := true }, bus := s.bus.after b s.ackEnable ack } := by
  simp [State.react, State.busIdleTime, State.busHeld, State.busReceive, State.onWire, Bus.after, hp, hb, hack, hrx,
    hstop]

/-- While the engine polls, a byte arrives; `data` held one. -/
theorem react_flagRead_shift (hrx : s.flags.rxNotEmpty = true) (hshift : s.bus.shift = none) (hstop : s.stop = false) :
    s.react (.flagRead f a) = { s with
      flags := { s.flags with btf := true }, bus := { s.bus.after b s.ackEnable ack with shift := some b } } := by
  simp [State.react, State.busIdleTime, State.busHeld, State.busReceive, State.onWire, Bus.after, hp, hb, hack, hrx,
    hshift, hstop]

/-- While the engine polls, a byte arrives and the STOP that was asked for follows it. -/
theorem react_flagRead_last (hrx : s.flags.rxNotEmpty = false) (hstop : s.stop = true) :
    s.react (.flagRead f a) = State.busStop { s with
      data := b, flags := { s.flags with rxNotEmpty := true }, bus := s.bus.after b s.ackEnable ack } := by
  simp [State.react, State.busIdleTime, State.busHeld, State.busReceive, State.onWire, Bus.after, hp, hb, hack, hrx,
    hstop]

end

end

/-! ### The registers a burst reads (R65) -/

/-- The `i`-th register of a burst. -/
def burstByte (m : Memory) (slave : SlaveAddr) (reg : Byte) (i : Nat) : Byte :=
  m.read (slaveCell slave (reg + BitVec.ofNat 8 i))

theorem burst_succ (m : Memory) (slave : SlaveAddr) (reg : Byte) (n : Nat) :
    burst m slave reg (n + 1) = burst m slave reg n ++ [burstByte m slave reg n] := by
  simp [burst, burstByte, List.range_succ]

/-- Inside the 256 registers the slave sends the burst's next byte. -/
theorem sends_eq_burstByte {bus : Bus} {reg : Byte} {i : Nat} (hptr : bus.ptr = reg.toNat + i)
    (hi : reg.toNat + i < 256) : bus.sends = burstByte bus.mem bus.slave reg i := by
  rw [Bus.sends, hptr, if_pos hi, burstByte, BitVec.ofNat_add, BitVec.ofNat_toNat, BitVec.setWidth_eq]

theorem dataSymbols_append (l : List Byte) (b : Byte) :
    dataSymbols (l ++ [b]) = l.map (.byte · true) ++ [.byte b false] := by
  induction l with
  | nil => rfl
  | cons c l ih =>
    cases l with
    | nil => rfl
    | cons d l => exact congrArg (Symbol.byte c true :: ·) ih

/-- The buffer of a read of `n` bytes of which `i` have come. -/
def burstCells (m : Memory) (slave : SlaveAddr) (reg : Byte) (n i : Nat) : List BufCell :=
  (burst m slave reg i).map .byte ++ List.replicate (n - i) .empty

theorem burst_length (m : Memory) (slave : SlaveAddr) (reg : Byte) (n : Nat) : (burst m slave reg n).length = n := by
  simp [burst]

theorem burstCells_set (m : Memory) (slave : SlaveAddr) (reg : Byte) {n i : Nat} (hi : i < n) :
    (burstCells m slave reg n i).set i (.byte (burstByte m slave reg i)) = burstCells m slave reg n (i + 1) := by
  obtain ⟨k, hk⟩ : ∃ k, n - i = k + 1 := ⟨n - i - 1, by omega⟩
  have hk' : n - (i + 1) = k := by omega
  rw [burstCells, List.set_append_right _ _ (by simp [burst_length])]
  simp [burstCells, burst_succ, burst_length, hk, hk', List.replicate_succ]

theorem burstCells_zero (m : Memory) (slave : SlaveAddr) (reg : Byte) (n : Nat) :
    burstCells m slave reg n 0 = List.replicate n .empty := by
  simp [burstCells, burst]

theorem burstCells_full (m : Memory) (slave : SlaveAddr) (reg : Byte) (n : Nat) :
    burstCells m slave reg n n = (burst m slave reg n).map .byte := by
  simp [burstCells]

/-! ### The command against the fixture, up to where the two directions part (R111 to R119) -/

/-- The slave is addressed and its register selected. -/
def State.selected (s : State) : State :=
  { s with
    step := afterSelect s.params s.cmd, polls := 0, start := false, data := s.cmd.reg
    flags := { s.flags with
      busy := true, startSent := true, addrMatched := false, txDir := true, txEmpty := true, btf := true }
    bus := { s.bus with
      phase := .store, slave := s.cmd.slave, ptr := s.cmd.reg.toNat
      wire := s.bus.wire ++ [.start] ++ [.byte (slaWrite s.cmd.slave) true] ++ [.byte s.cmd.reg true] } }

/-- Nine turns, one line each: the state's step, its sample or its event, and the controller's reaction. -/
theorem runsTo_selected {s : State} (hs : s.step = .p1WaitIdle) (hb : s.flags.busy = false) (hp : s.bus.phase = .idle)
    (ha : s.cmd.slave ∈ s.bus.present) : s.RunsTo (List.replicate 9 .conforming) s.selected :=
  .cons (runsTo_poll .p1WaitIdle hs rfl hb (react_flagRead_idle (by exact hp) _ _)) <|
  .cons (runsTo_emit .p2Start rfl rfl rfl rfl (react_start (by exact hp))) <|
  .cons (runsTo_poll .p2WaitSb rfl rfl rfl rfl) <|
  .cons (runsTo_emit .p3AddrW rfl rfl rfl rfl (react_slaWrite rfl (by exact ha))) <|
  .cons (runsTo_poll .p3WaitAddr rfl rfl rfl rfl) <|
  .cons (runsTo_poll .p3WaitTra rfl rfl rfl rfl) <|
  .cons (runsTo_poll .p4WaitTxe rfl rfl rfl rfl) <|
  .cons (runsTo_emit .p4Reg rfl rfl rfl rfl rfl) <|
  (runsTo_poll .p5WaitBtf rfl rfl rfl rfl).of_eq rfl

end Sys2Proof.Machine
end

section
/-! SUPPORT. Whole commands against the conforming fixture: the write, the three paths of a read, and the write read back. -/

namespace Sys2Proof.Machine

/-! ### The host's issue (R95) -/

theorem runsTo_issue {s t : State} {w : CmdWord}
    (h : ∀ rest tr, State.issueTurn { s with turns := rest, trace := tr } w =
      .next { t with turns := rest, trace := tr }) :
    s.RunsTo [.issue w] t :=
  runsTo_take fun rest tr => ⟨tr, h rest tr⟩

theorem runsTo_issueWrite {s : State} (hi : s.step = .idle) (a : SlaveAddr) (r v : Byte) :
    s.RunsTo [.issue (encodeWrite a r v 0)] (s.beginWrite a r v) :=
  runsTo_issue fun rest tr => issueTurn_encodeWrite (s := { s with turns := rest, trace := tr }) a r v hi

theorem runsTo_issueRead {s : State} (hi : s.step = .idle) (a : SlaveAddr) (r : Byte) {n : LengthField} (hn : n ≠ 0) :
    s.RunsTo [.issue (encodeRead a r n)] (s.beginRead a r n.toNat) :=
  runsTo_issue fun rest tr => issueTurn_encodeRead (s := { s with turns := rest, trace := tr }) a r n hi hn

/-! ### The write (R120 to R123) -/

/-- A write of `value` to register `reg` of `slave` has gone through the fixture from `s` to `t`. -/
structure State.WriteEnds (s : State) (slave : SlaveAddr) (reg value : Byte) (t : State) : Prop where
  quiet : t.QuietWith slave
  status : t.status = .ok
  done : t.done = true
  params : t.params = s.params
  wire : t.bus.wire = s.bus.wire ++ writeFrame slave reg value
  mem : t.bus.mem = s.bus.mem.write (slaveCell slave reg) value

theorem get_finalFlag (w : FinalWait) {fl : Flags} (hs : fl.startSent = false) (hb : fl.busy = false) :
    fl.get (finalFlag w) = false := by
  cases w
  · exact hs
  · exact hb

/-- The value's byte, the STOP and the last wait. -/
theorem selected_writeEnds {s : State} {slave : SlaveAddr} (reg value : Byte) (ha : slave ∈ s.bus.present) :
    ∃ t, (s.beginWrite slave reg value).selected.RunsTo (List.replicate 4 .conforming) t ∧
      s.WriteEnds slave reg value t := by
  refine ⟨_, .cons (runsTo_emit .w5Value rfl rfl rfl rfl rfl) <|
    .cons (runsTo_poll .w6WaitBtf rfl rfl rfl rfl) <|
    .cons (runsTo_emit .w6Stop rfl rfl rfl rfl rfl) <|
    runsTo_poll .w7WaitEnd rfl rfl (get_finalFlag _ rfl rfl) rfl,
    ⟨rfl, rfl, rfl, rfl, ha⟩, rfl, rfl, rfl, ?_, ?_⟩
  · change s.bus.wire ++ [.start] ++ [.byte (slaWrite slave) true] ++ [.byte reg true] ++ [.byte value true] ++
      [.stop] = _
    simp [writeFrame]
  · change s.bus.mem.write (slaveCell slave (BitVec.ofNat 8 reg.toNat)) value = _
    rw [BitVec.ofNat_toNat, BitVec.setWidth_eq]

theorem write_runs {s : State} {slave : SlaveAddr} (hq : s.QuietWith slave) (reg value : Byte) :
    ∃ t, s.RunsTo (.issue (encodeWrite slave reg value 0) :: List.replicate 13 .conforming) t ∧
      s.WriteEnds slave reg value t := by
  obtain ⟨hi, hb, -, hp, ha⟩ := hq
  have hselect : (s.beginWrite slave reg value).RunsTo (List.replicate 9 .conforming) _ :=
    runsTo_selected rfl hb hp ha
  obtain ⟨t, ht, hends⟩ := selected_writeEnds reg value ha
  exact ⟨t, .cons (runsTo_issueWrite hi slave reg value) (hselect.trans ht), hends⟩

/-- Settles O55: the issue, the nine turns up to the selected register and the write's tail of four. -/
theorem conformingWrite : Obligations.ConformingWrite := by
  intro slave reg value s hq hwf hturns
  obtain ⟨t, ht, hends⟩ := write_runs hq reg value
  obtain ⟨tr, hrun⟩ := ht.run hturns rfl
  refine ⟨_, hrun, hends.quiet, hends.status, hends.done, hends.wire, fun a => ?_⟩
  rw [hends.mem, Memory.read_write hwf]

/-! ### The opening of the read phase (R142 to R148) -/

/-- The slave is addressed again, for reading, and the path is chosen. -/
def State.dispatched (s : State) : State :=
  { s with
    step := firstOfPath s.cmd.length, polls := 0, ackEnable := true, ackPolicy := true, pos := false, start := false
    data := slaRead s.cmd.slave
    flags := { s.flags with
      busy := true, startSent := true, addrMatched := true, txDir := false, btf := false, rxNotEmpty := false }
    bus := { s.bus with
      phase := .armed, slave := s.cmd.slave, shift := none
      wire := s.bus.wire ++ [.restart] ++ [.byte (slaRead s.cmd.slave) true] } }

theorem runsTo_dispatched {s : State} (hs : s.step = .r0AckSet) (hp : s.bus.phase ≠ .idle)
    (ha : s.cmd.slave ∈ s.bus.present) : s.RunsTo (List.replicate 6 .conforming) s.dispatched :=
  .cons (runsTo_emit .r0AckSet hs rfl rfl rfl rfl) <|
  .cons (runsTo_emit .r0PosClr rfl rfl rfl rfl rfl) <|
  .cons (runsTo_emit .r1Restart rfl rfl rfl rfl (react_restart (by exact hp))) <|
  .cons (runsTo_poll .r1WaitSb rfl rfl rfl rfl) <|
  .cons (runsTo_emit .r2AddrR rfl rfl rfl rfl (react_slaRead rfl (by exact ha))) <|
  (runsTo_poll .r2WaitAddr rfl rfl rfl rfl).of_eq rfl

/-- What the three paths of a read of `n` bytes start from, before the read's opening: the register is selected and no
byte has come. -/
structure State.ReadSelected (s : State) (n : Nat) : Prop where
  length : s.cmd.length = n
  buf : s.buf = List.replicate n .empty
  ptr : s.bus.ptr = s.cmd.reg.toNat
  stop : s.stop = false
  budget : s.params.pollBudget = none

/-- A path of a read of `n` bytes has gone through the fixture, from the dispatch after `s` to `t`. -/
structure State.PathEnds (s : State) (n : Nat) (t : State) : Prop where
  step : t.step = .idle
  busy : t.flags.busy = false
  stop : t.stop = false
  phase : t.bus.phase = .idle
  present : t.bus.present = s.bus.present
  status : t.status = .ok
  done : t.done = true
  buf : t.buf = (burst s.bus.mem s.cmd.slave s.cmd.reg n).map .byte
  wire : t.bus.wire = s.dispatched.bus.wire ++ dataSymbols (burst s.bus.mem s.cmd.slave s.cmd.reg n) ++ [.stop]
  mem : t.bus.mem = s.bus.mem

/-- The `i`-th byte of the burst that the command in `s` reads. -/
abbrev State.awaited (s : State) (i : Nat) : Byte := burstByte s.bus.mem s.cmd.slave s.cmd.reg i

section
variable {s : State}

/-! ### The path RD1 (R161 to R165) -/

/-- The byte comes while the engine waits for it, and the STOP asked for before follows it. -/
theorem rd1_pathEnds (h : s.ReadSelected 1) :
    ∃ t, s.dispatched.RunsTo (List.replicate 6 .conforming) t ∧ s.PathEnds 1 t := by
  obtain ⟨hlength, hbuf, hptr, -, hbudget⟩ := h
  have hs : s.dispatched.step = .s1AckClr := by simp [State.dispatched, hlength, firstOfPath]
  have hreg := s.cmd.reg.isLt
  refine ⟨_, .cons (runsTo_emit .s1AckClr hs rfl rfl rfl rfl) <|
    .cons (runsTo_emit .s1AddrClr rfl rfl rfl rfl rfl) <|
    .cons (runsTo_emit .s1Stop rfl rfl rfl rfl rfl) <|
    .cons (runsTo_stayed .s1WaitRxne rfl rfl rfl hbudget
      (react_flagRead_last (b := s.awaited 0) (ack := false) rfl
        (sends_eq_burstByte hptr hreg) rfl rfl rfl)) <|
    .cons (runsTo_poll .s1WaitRxne rfl rfl rfl rfl) <|
    runsTo_read .s1Read rfl rfl rfl rfl,
    rfl, rfl, rfl, rfl, rfl, rfl, rfl, ?_, rfl, rfl⟩
  change s.buf.set 0 (.byte (s.awaited 0)) = _
  rw [hbuf]
  rfl

/-! ### The path RD2 (R168 to R174) -/

/-- With `pos` set the first byte has the acknowledge of the address phase, and the second that of the BitClear after it
(log 20). -/
theorem rd2_pathEnds (h : s.ReadSelected 2) (hreg : s.cmd.reg.toNat + 2 ≤ 256) :
    ∃ t, s.dispatched.RunsTo (List.replicate 9 .conforming) t ∧ s.PathEnds 2 t := by
  obtain ⟨hlength, hbuf, hptr, hstop, hbudget⟩ := h
  have hs : s.dispatched.step = .s2PosSet := by simp [State.dispatched, hlength, firstOfPath]
  refine ⟨_, .cons (runsTo_emit .s2PosSet hs rfl rfl rfl rfl) <|
    .cons (runsTo_emit .s2AddrClr rfl rfl rfl rfl rfl) <|
    .cons (runsTo_emit .s2AckClr rfl rfl rfl rfl rfl) <|
    .cons (runsTo_stayed .s2WaitBtf rfl rfl rfl hbudget
      (react_flagRead_data (b := s.awaited 0) (ack := true) rfl
        (sends_eq_burstByte hptr (by omega)) rfl rfl hstop)) <|
    .cons (runsTo_stayed .s2WaitBtf rfl rfl rfl hbudget
      (react_flagRead_shift (b := s.awaited 1) (ack := false) rfl
        (sends_eq_burstByte (congrArg (· + 1) hptr) (by omega)) rfl rfl rfl hstop)) <|
    .cons (runsTo_poll .s2WaitBtf rfl rfl rfl rfl) <|
    .cons (runsTo_emit .s2Stop rfl rfl rfl rfl rfl) <|
    .cons (runsTo_read .s2Read0 rfl rfl rfl rfl) <|
    runsTo_read .s2Read1 rfl rfl rfl rfl,
    rfl, rfl, rfl, rfl, rfl, rfl, rfl, ?_, ?_, rfl⟩
  · change (s.buf.set 0 (.byte (s.awaited 0))).set 1
      (.byte (s.awaited 1)) = _
    rw [hbuf]
    rfl
  · change s.dispatched.bus.wire ++ [.byte (s.awaited 0) true] ++
      [.byte (s.awaited 1) false] ++ [.stop] = _
    rw [List.append_assoc s.dispatched.bus.wire]
    rfl

/-! ### The path RDN (R177 to R187) -/

/-- RDN with `i` bytes in `buf` and the next one, not yet read, in `data`. -/
def State.streaming (s : State) (i polls : Nat) : State :=
  { s.dispatched with
    step := streamOrTail i s.cmd.length, idx := i, polls := polls
    buf := burstCells s.bus.mem s.cmd.slave s.cmd.reg s.cmd.length i
    data := s.awaited i
    flags := { s.dispatched.flags with addrMatched := false, rxNotEmpty := true }
    bus := { s.dispatched.bus with
      phase := .receiving, ackNext := true, ptr := s.bus.ptr + i + 1
      wire := s.dispatched.bus.wire ++ (burst s.bus.mem s.cmd.slave s.cmd.reg (i + 1)).map (.byte · true) } }

theorem pollOf_streamOrTail (p : Params) (i n : Nat) : pollOf p (streamOrTail i n) = some (.btf, true) := by
  rcases streamOrTail_cases i n with ⟨-, h⟩ | ⟨-, h⟩ <;> rw [h] <;> rfl

section
variable {n : Nat} (h : s.ReadSelected n) (hn : 3 ≤ n) (hreg : s.cmd.reg.toNat + n ≤ 256)
include h hn hreg

/-- RDN opens, and its first byte comes. -/
theorem runsTo_streaming : s.dispatched.RunsTo (List.replicate 2 .conforming) (s.streaming 0 1) := by
  obtain ⟨rfl, hbuf, hptr, hstop, hbudget⟩ := h
  refine .cons (runsTo_emit .snAddrClr (firstOfPath_long hn) rfl rfl rfl rfl) <|
    State.RunsTo.of_eq (runsTo_stayed (streamOrTail 0 s.cmd.length) rfl (pollOf_streamOrTail _ _ _) rfl hbudget
      (react_flagRead_data (b := s.awaited 0) (ack := true) rfl
        (sends_eq_burstByte hptr (by omega)) rfl rfl hstop)) ?_
  conv_rhs => rw [State.streaming, burstCells_zero, ← hbuf]
  rfl

/-- One byte is streamed, and the next one comes meanwhile. -/
theorem streaming_runsTo_succ {i : Nat} (hi : i < n - 3) (polls : Nat) :
    (s.streaming i polls).RunsTo (List.replicate 3 .conforming) (s.streaming (i + 1) 0) := by
  obtain ⟨rfl, hbuf, hptr, hstop, hbudget⟩ := h
  refine .cons (runsTo_stayed .snStreamWait (streamOrTail_stream hi) rfl rfl hbudget
      (react_flagRead_shift (b := s.awaited (i + 1)) (ack := true) rfl
        (sends_eq_burstByte (congrArg (· + i + 1) hptr) (by omega)) rfl rfl rfl hstop)) <|
    .cons (runsTo_poll .snStreamWait (streamOrTail_stream hi) rfl rfl rfl) <|
    State.RunsTo.of_eq (runsTo_read .snStreamRead rfl rfl rfl rfl) ?_
  conv_rhs =>
    rw [State.streaming, ← burstCells_set _ _ _ (by omega), burst_succ _ _ _ (i + 1), List.map_append,
      ← List.append_assoc]
  rfl

/-- The loop, by induction over the bytes streamed. -/
theorem streaming_runsTo {i : Nat} (hi : i ≤ n - 3) :
    ∃ polls, (s.streaming 0 1).RunsTo (List.replicate (3 * i) .conforming) (s.streaming i polls) := by
  induction i with
  | zero => exact ⟨1, .refl _⟩
  | succ i ih =>
    obtain ⟨polls, hrun⟩ := ih (by omega)
    refine ⟨0, ?_⟩
    rw [Nat.mul_succ, List.replicate_add]
    exact hrun.trans (streaming_runsTo_succ h hn hreg hi polls)

/-- The tail of three: the third last byte is in `data`, the second last comes while the engine waits for `btf`, and the
last, with the STOP after it, while it waits for the bus to be released. -/
theorem streaming_pathEnds {polls : Nat} :
    ∃ t, (s.streaming (n - 3) polls).RunsTo (List.replicate 10 .conforming) t ∧ s.PathEnds n t := by
  obtain ⟨m, rfl⟩ : ∃ m, n = m + 3 := ⟨n - 3, by omega⟩
  obtain ⟨hlength, hbuf, hptr, hstop, hbudget⟩ := h
  have hs : streamOrTail m s.cmd.length = .snTailWaitBtf := streamOrTail_tail (by omega)
  refine ⟨_, .cons (runsTo_stayed .snTailWaitBtf hs rfl rfl hbudget
      (react_flagRead_shift (b := s.awaited (m + 1)) (ack := true) rfl
        (sends_eq_burstByte (congrArg (· + m + 1) hptr) (by omega)) rfl rfl rfl hstop)) <|
    .cons (runsTo_poll .snTailWaitBtf hs rfl rfl rfl) <|
    .cons (runsTo_emit .snTailAckClr rfl rfl rfl rfl rfl) <|
    .cons (runsTo_read .snTailReadA rfl rfl rfl rfl) <|
    .cons (runsTo_emit .snTailStop rfl rfl rfl rfl rfl) <|
    .cons (runsTo_read .snTailReadB rfl rfl rfl rfl) <|
    .cons (runsTo_stayed .snTailWaitIdle rfl rfl rfl hbudget
      (react_flagRead_last (b := s.awaited (m + 2)) (ack := false) rfl
        (sends_eq_burstByte (congrArg (· + m + 1 + 1) hptr) (by omega)) rfl rfl rfl)) <|
    .cons (runsTo_poll .snTailWaitIdle rfl rfl rfl rfl) <|
    .cons (runsTo_poll .snTailWaitRxne rfl rfl rfl rfl) <|
    runsTo_read .snTailReadC rfl rfl rfl rfl,
    rfl, rfl, rfl, rfl, rfl, rfl, rfl, ?_, ?_, rfl⟩
  · change (((burstCells s.bus.mem s.cmd.slave s.cmd.reg s.cmd.length m).set (s.cmd.length - 3)
      (.byte (s.awaited m))).set (s.cmd.length - 2) (.byte (s.awaited (m + 1)))).set (s.cmd.length - 1)
      (.byte (s.awaited (m + 2))) = _
    rw [hlength, Nat.add_sub_cancel, burstCells_set _ _ _ (by omega)]
    change ((burstCells s.bus.mem s.cmd.slave s.cmd.reg (m + 3) (m + 1)).set (m + 1) _).set (m + 2) _ = _
    rw [burstCells_set _ _ _ (by omega), burstCells_set _ _ _ (by omega), burstCells_full]
  · change s.dispatched.bus.wire ++ (burst s.bus.mem s.cmd.slave s.cmd.reg (m + 1)).map (.byte · true) ++
      [.byte (s.awaited (m + 1)) true] ++ [.byte (s.awaited (m + 2)) false] ++ [.stop] = _
    rw [burst_succ _ _ _ (m + 2), dataSymbols_append, burst_succ _ _ _ (m + 1), List.map_append]
    simp only [List.append_assoc, List.map_cons, List.map_nil]

/-- The opening, `n - 3` bytes streamed and the tail of three. -/
theorem rdn_pathEnds : ∃ t, s.dispatched.RunsTo (List.replicate (3 * n + 3) .conforming) t ∧ s.PathEnds n t := by
  obtain ⟨polls, hstream⟩ := streaming_runsTo h hn hreg le_rfl
  obtain ⟨t, htail, hends⟩ := streaming_pathEnds h hn hreg (polls := polls)
  have hcount : 3 * n + 3 = 2 + 3 * (n - 3) + 10 := by omega
  refine ⟨t, ?_, hends⟩
  rw [hcount, List.replicate_add, List.replicate_add]
  exact ((runsTo_streaming h hn hreg).trans hstream).trans htail

end
end

/-! ### The whole read (R75) -/

/-- A read of `n` bytes from register `reg` of `slave` has gone through the fixture from `s` to `t`. -/
structure State.ReadEnds (s : State) (slave : SlaveAddr) (reg : Byte) (n : Nat) (t : State) : Prop where
  quiet : t.QuietWith slave
  status : t.status = .ok
  done : t.done = true
  buf : t.buf = (burst s.bus.mem slave reg n).map .byte
  wire : t.bus.wire = s.bus.wire ++ readFrame slave reg (burst s.bus.mem slave reg n)
  mem : t.bus.mem = s.bus.mem

/-- A read goes through the fixture when its path does. -/
theorem read_runs {s : State} {slave : SlaveAddr} {reg : Byte} {length : LengthField} {n k : Nat}
    (hq : s.QuietWith slave) (hparams : s.params = Params.default) (hlength : length.toNat = n) (hn : 1 ≤ n)
    (hpath : ∀ u : State, u.cmd.reg = reg → u.ReadSelected n →
      ∃ t, u.dispatched.RunsTo (List.replicate k .conforming) t ∧ u.PathEnds n t) :
    ∃ t, s.RunsTo (.issue (encodeRead slave reg length) :: List.replicate (15 + k) .conforming) t ∧
      s.ReadEnds slave reg n t := by
  obtain ⟨hi, hb, hstop, hp, ha⟩ := hq
  subst hlength
  have hne : length ≠ 0 := by rintro rfl; simp at hn
  have hread : (s.beginRead slave reg length.toNat).selected.step = .r0AckSet := by
    simp [State.selected, State.beginRead, afterSelect, Command.latchRead, hparams, Params.default]
  have hbudget : (s.beginRead slave reg length.toNat).selected.params.pollBudget = none := congrArg _ hparams
  have hselect : (s.beginRead slave reg length.toNat).RunsTo (List.replicate 9 .conforming) _ :=
    runsTo_selected rfl hb hp ha
  have hopen : (s.beginRead slave reg length.toNat).selected.RunsTo (List.replicate 6 .conforming) _ :=
    runsTo_dispatched hread nofun ha
  obtain ⟨t, ht, hends⟩ := hpath (s.beginRead slave reg length.toNat).selected rfl
    ⟨rfl, rfl, rfl, hstop, hbudget⟩
  refine ⟨t, ?_, ⟨hends.step, hends.busy, hends.stop, hends.phase, ?_⟩, hends.status, hends.done, hends.buf, ?_,
    hends.mem⟩
  · rw [List.replicate_add]
    exact .cons (runsTo_issueRead hi slave reg hne) ((hselect.trans hopen).trans ht)
  · rw [hends.present]
    exact ha
  · rw [hends.wire]
    change s.bus.wire ++ [.start] ++ [.byte (slaWrite slave) true] ++ [.byte reg true] ++ [.restart] ++
      [.byte (slaRead slave) true] ++ dataSymbols (burst s.bus.mem slave reg length.toNat) ++ [.stop] = _
    simp [readFrame]

/-- Settles O56: the path RD1 takes six turns, its STOP following the one byte. -/
theorem conformingReadOne : Obligations.ConformingReadOne := by
  intro slave reg s hq hparams hturns
  obtain ⟨t, ht, hends⟩ := read_runs (reg := reg) (length := 1) hq hparams rfl le_rfl fun _ _ hu => rd1_pathEnds hu
  obtain ⟨tr, hrun⟩ := ht.run hturns rfl
  exact ⟨_, hrun, hends.quiet, hends.status, hends.done, hends.buf, hends.wire, hends.mem⟩

/-- Settles O57: the path RD2 takes nine turns, `pos` delaying the acknowledge by one byte. -/
theorem conformingReadTwo : Obligations.ConformingReadTwo := by
  intro slave reg s hq hparams hreg hturns
  obtain ⟨t, ht, hends⟩ := read_runs (reg := reg) (length := 2) hq hparams rfl (by decide) fun _ hr hu =>
    rd2_pathEnds hu (hr ▸ hreg)
  obtain ⟨tr, hrun⟩ := ht.run hturns rfl
  exact ⟨_, hrun, hends.quiet, hends.status, hends.done, hends.buf, hends.wire, hends.mem⟩

/-- Settles O58: the path RDN takes `3 n + 3` turns, by induction over the bytes streamed. -/
theorem conformingReadMany : Obligations.ConformingReadMany := by
  intro slave reg n s hq hparams hn hreg hturns
  have hlength : (BitVec.ofNat 16 n).toNat = n := by
    rw [BitVec.toNat_ofNat, Nat.mod_eq_of_lt (by omega)]
  obtain ⟨t, ht, hends⟩ := read_runs (reg := reg) hq hparams hlength (by omega) fun _ hr hu =>
    rdn_pathEnds hu hn (hr ▸ hreg)
  obtain ⟨tr, hrun⟩ := ht.run (k := 3 * n + 19) (by rw [hturns]; congr 2; omega)
    (by rw [List.length_cons, List.length_replicate]; omega)
  exact ⟨_, hrun, hends.quiet, hends.status, hends.done, hends.buf, hends.wire, hends.mem⟩

/-- Settles O59: the run of the write, then the run of the read from the quiet state it leaves. -/
theorem writeThenReadBack : Obligations.WriteThenReadBack := by
  intro slave reg value s hq hwf hparams hturns
  obtain ⟨u, hu, hwrite⟩ := write_runs hq reg value
  obtain ⟨t, ht, hread⟩ := read_runs (reg := reg) (length := 1) hwrite.quiet (hwrite.params.trans hparams) rfl
    le_rfl fun _ _ hu => rd1_pathEnds hu
  obtain ⟨tr, hrun⟩ := (hu.trans ht).run hturns rfl
  refine ⟨_, hrun, hread.status, hread.done, hread.buf.trans ?_⟩
  have hbyte : burstByte u.bus.mem slave reg 0 = value := by
    rw [burstByte, hwrite.mem, BitVec.add_zero, Memory.read_write_same hwf.1]
  exact congrArg (fun b => [BufCell.byte b]) hbyte

end Sys2Proof.Machine
end

section
/-! SUPPORT. The encodings: each decode row with its condition, the fields of an assembled word and a word assembled again
from its fields, the state codes as places in the table of R81, and the word placed for the next step. -/

namespace Sys2Proof.Machine

/-! ### A word that ends in its direction bit (R71, R73) -/

/-- A word is its upper bits followed by bit 0. -/
theorem upper_append_bit {k : Nat} (x : BitVec (k + 1)) : x.extractLsb' 1 k ++ BitVec.ofBool (x.getLsbD 0) = x := by
  rw [← BitVec.setWidth_one, BitVec.setWidth_eq_extractLsb' (by omega)]
  exact BitVec.extractLsb'_append_extractLsb'

/-! ### Command words: the rows of the decode order (R86) -/

section
variable {w : CmdWord}

theorem decodeCmd_wr (hd : CmdWord.dir w = false) (hx : CmdWord.reserved w = 0) :
    decodeCmd w = .wr (CmdWord.slave w) (CmdWord.reg w) (CmdWord.value w) := by
  rw [decodeCmd, if_pos hd, if_neg (not_not.2 hx)]

theorem decodeCmd_wrReserved (hd : CmdWord.dir w = false) (hx : CmdWord.reserved w ≠ 0) :
    decodeCmd w = .wrReserved (CmdWord.slave w) (CmdWord.reg w) (CmdWord.value w) (CmdWord.reserved w) := by
  rw [decodeCmd, if_pos hd, if_pos hx]

theorem decodeCmd_rd0 (hd : CmdWord.dir w = true) (hn : CmdWord.length w = 0) :
    decodeCmd w = .rd0 (CmdWord.slave w) (CmdWord.reg w) := by
  simp [decodeCmd, hd, hn]

theorem decodeCmd_rd1 (hd : CmdWord.dir w = true) (hn : CmdWord.length w = 1) :
    decodeCmd w = .rd1 (CmdWord.slave w) (CmdWord.reg w) := by
  simp [decodeCmd, hd, hn]

theorem decodeCmd_rd2 (hd : CmdWord.dir w = true) (hn : CmdWord.length w = 2) :
    decodeCmd w = .rd2 (CmdWord.slave w) (CmdWord.reg w) := by
  simp [decodeCmd, hd, hn]

theorem decodeCmd_rdn (hd : CmdWord.dir w = true) (hn : 3 ≤ (CmdWord.length w).toNat) :
    decodeCmd w = .rdn (CmdWord.slave w) (CmdWord.reg w) (CmdWord.length w) := by
  have h0 : CmdWord.length w ≠ 0 := by bv_omega
  have h1 : CmdWord.length w ≠ 1 := by bv_omega
  have h2 : CmdWord.length w ≠ 2 := by bv_omega
  rw [decodeCmd, if_neg (by simp [hd]), if_neg h0, if_neg h1, if_neg h2]

end

/-! ### Command words: from the fields to the word and back (R71) -/

section
variable (a : SlaveAddr) (r v x : Byte) (n : LengthField)

@[simp] theorem dir_encodeWrite : CmdWord.dir (encodeWrite a r v x) = false := dir_append a r (x ++ v) 0#1
@[simp] theorem slave_encodeWrite : CmdWord.slave (encodeWrite a r v x) = a := slave_append a r (x ++ v) 0#1
@[simp] theorem reg_encodeWrite : CmdWord.reg (encodeWrite a r v x) = r := reg_append a r (x ++ v) 0#1
@[simp] theorem value_encodeWrite : CmdWord.value (encodeWrite a r v x) = v :=
  (upper_append a r (x ++ v) 0#1 16 8 le_rfl).trans BitVec.extractLsb'_append_eq_right
@[simp] theorem reserved_encodeWrite : CmdWord.reserved (encodeWrite a r v x) = x :=
  (upper_append a r (x ++ v) 0#1 24 8 (by decide)).trans BitVec.extractLsb'_append_eq_left

@[simp] theorem dir_encodeRead : CmdWord.dir (encodeRead a r n) = true := dir_append a r n 1#1
@[simp] theorem slave_encodeRead : CmdWord.slave (encodeRead a r n) = a := slave_append a r n 1#1
@[simp] theorem reg_encodeRead : CmdWord.reg (encodeRead a r n) = r := reg_append a r n 1#1
@[simp] theorem length_encodeRead : CmdWord.length (encodeRead a r n) = n :=
  (upper_append a r n 1#1 16 16 le_rfl).trans BitVec.extractLsb'_eq_self

end

/-- A command word is its upper half, its register, its slave and its direction bit. -/
theorem fields_append (w : CmdWord) :
    CmdWord.length w ++ CmdWord.reg w ++ CmdWord.slave w ++ BitVec.ofBool (CmdWord.dir w) = w := by
  have hreg : CmdWord.length w ++ CmdWord.reg w = w.extractLsb' 8 24 :=
    BitVec.extractLsb'_append_extractLsb'_eq_extractLsb' rfl
  have hslave : w.extractLsb' 8 24 ++ CmdWord.slave w = w.extractLsb' 1 31 :=
    BitVec.extractLsb'_append_extractLsb'_eq_extractLsb' rfl
  rw [hreg, hslave]
  exact upper_append_bit w

/-- The upper half of a write word is its reserved bits and its value. -/
theorem reserved_append_value (w : CmdWord) : CmdWord.reserved w ++ CmdWord.value w = CmdWord.length w :=
  BitVec.extractLsb'_append_extractLsb'_eq_extractLsb' rfl

theorem encodeWrite_fields {w : CmdWord} (h : CmdWord.dir w = false) :
    encodeWrite (CmdWord.slave w) (CmdWord.reg w) (CmdWord.value w) (CmdWord.reserved w) = w := by
  have hw := fields_append w
  rwa [h, ← reserved_append_value] at hw

theorem encodeRead_fields {w : CmdWord} (h : CmdWord.dir w = true) :
    encodeRead (CmdWord.slave w) (CmdWord.reg w) (CmdWord.length w) = w := by
  have hw := fields_append w
  rwa [h] at hw

/-- A length that is none of the three short ones is 3 or more (R76). -/
theorem longEnough_of_ne {n : LengthField} (h0 : n ≠ 0) (h1 : n ≠ 1) (h2 : n ≠ 2) : Instr.longEnough n = true :=
  decide_eq_true (by bv_omega)

/-- Every command word is the word of a well-formed instruction. -/
theorem exists_encode_cmd (w : CmdWord) : ∃ i : Instr, i.wf = true ∧ encode i = .cmd w := by
  cases hd : CmdWord.dir w
  case false =>
    have hw := encodeWrite_fields hd
    by_cases hx : CmdWord.reserved w = 0
    · exact ⟨.wr _ _ _, rfl, congrArg Encoded.cmd (hx ▸ hw)⟩
    · exact ⟨.wrReserved _ _ _ _, bne_iff_ne.2 hx, congrArg Encoded.cmd hw⟩
  case true =>
    have hw := encodeRead_fields hd
    by_cases h0 : CmdWord.length w = 0
    · exact ⟨.rd0 _ _, rfl, congrArg Encoded.cmd (h0 ▸ hw)⟩
    by_cases h1 : CmdWord.length w = 1
    · exact ⟨.rd1 _ _, rfl, congrArg Encoded.cmd (h1 ▸ hw)⟩
    by_cases h2 : CmdWord.length w = 2
    · exact ⟨.rd2 _ _, rfl, congrArg Encoded.cmd (h2 ▸ hw)⟩
    exact ⟨.rdn _ _ _, longEnough_of_ne h0 h1 h2, congrArg Encoded.cmd hw⟩

/-- The row the decoder picks for the word of a command is the command's own: `wf` keeps a `WR_RESERVED` from reading as a
`WR`, and an `RDN` as a shorter read. -/
theorem decode_encode_command {i : Instr} (hc : isCommand i = true) (hwf : i.wf = true) : decode (encode i) = .ok i := by
  cases i <;> simp only [isCommand, Bool.false_eq_true] at hc
  case wr a r v => simp [encode, decode, decodeCmd_wr]
  case wrReserved a r v x =>
    have hx : CmdWord.reserved (encodeWrite a r v x) ≠ 0 := by simpa [Instr.wf, Instr.reservedSet] using hwf
    simp [encode, decode, decodeCmd_wrReserved _ hx]
  case rd0 a r => simp [encode, decode, decodeCmd_rd0]
  case rd1 a r => simp [encode, decode, decodeCmd_rd1]
  case rd2 a r => simp [encode, decode, decodeCmd_rd2]
  case rdn a r n =>
    have hn : 3 ≤ (CmdWord.length (encodeRead a r n)).toNat := by simpa [Instr.wf, Instr.longEnough] using hwf
    simp [encode, decode, decodeCmd_rdn _ hn]

/-! ### Command words: the fields as arithmetic (R71) -/

section
variable (w : CmdWord)

theorem extractLsb'_eq_ofNat_div {k : Nat} (x : BitVec k) (start len : Nat) :
    x.extractLsb' start len = BitVec.ofNat len (x.toNat / 2 ^ start) :=
  congrArg (BitVec.ofNat len) (Nat.shiftRight_eq_div_pow _ start)

theorem dir_eq_decide : CmdWord.dir w = decide (w.toNat % 2 = 1) := Nat.testBit_zero _
theorem slave_eq_div : CmdWord.slave w = BitVec.ofNat 7 (w.toNat / 2) := extractLsb'_eq_ofNat_div w 1 7
theorem reg_eq_div : CmdWord.reg w = BitVec.ofNat 8 (w.toNat / 256) := extractLsb'_eq_ofNat_div w 8 8
theorem value_eq_div : CmdWord.value w = BitVec.ofNat 8 (w.toNat / 65536) := extractLsb'_eq_ofNat_div w 16 8
theorem reserved_eq_div : CmdWord.reserved w = BitVec.ofNat 8 (w.toNat / 16777216) := extractLsb'_eq_ofNat_div w 24 8
theorem length_eq_div : CmdWord.length w = BitVec.ofNat 16 (w.toNat / 65536) := extractLsb'_eq_ofNat_div w 16 16

/-- The upper byte of a word is the whole quotient: no bit is cut off. -/
theorem reserved_toNat : (CmdWord.reserved w).toNat = w.toNat / 16777216 := by
  rw [reserved_eq_div, BitVec.toNat_ofNat, Nat.mod_eq_of_lt (by omega)]

/-- The upper half of a word is the whole quotient: no bit is cut off. -/
theorem length_toNat : (CmdWord.length w).toNat = w.toNat / 65536 := by
  rw [length_eq_div, BitVec.toNat_ofNat, Nat.mod_eq_of_lt (by omega)]

end

/-! ### Address bytes (R73) -/

/-- The address byte is the slave address followed by the direction bit. -/
theorem addressByte_eq_append (a : SlaveAddr) (d : BitVec 1) : addressByte a d = a ++ d :=
  BitVec.setWidth_append_eq_shiftLeft_setWidth_or.symm.trans (BitVec.setWidth_eq _)

section
variable (a : SlaveAddr) (d : BitVec 1)

theorem addressByte_toNat : (addressByte a d).toNat = 2 * a.toNat + d.toNat := by
  rw [addressByte_eq_append, BitVec.toNat_append, ← Nat.shiftLeft_add_eq_or_of_lt d.isLt, Nat.shiftLeft_eq]
  omega

theorem addressByte_dir : (addressByte a d).getLsbD 0 = d.getLsbD 0 := by
  rw [addressByte_eq_append, BitVec.getLsbD_append, if_pos Nat.zero_lt_one]

theorem addressByte_slave : (addressByte a d).extractLsb' 1 7 = a := by
  rw [addressByte_eq_append, BitVec.extractLsb'_append_eq_left]

theorem slaWrite_toNat : (slaWrite a).toNat = 2 * a.toNat := addressByte_toNat a 0
theorem slaRead_toNat : (slaRead a).toNat = 2 * a.toNat + 1 := addressByte_toNat a 1

theorem decodeAddrByte_slaWrite : decodeAddrByte (slaWrite a) = .slaW a := by
  rw [decodeAddrByte, slaWrite, addressByte_dir, addressByte_slave]
  rfl

theorem decodeAddrByte_slaRead : decodeAddrByte (slaRead a) = .slaR a := by
  rw [decodeAddrByte, slaRead, addressByte_dir, addressByte_slave]
  rfl

end

/-- Every byte is an address byte: of the slave in its upper seven bits, with the direction in bit 0. -/
theorem exists_encode_addrByte (b : Byte) : ∃ i : Instr, i.wf = true ∧ encode i = .addrByte b := by
  have hb := (addressByte_eq_append (b.extractLsb' 1 7) (BitVec.ofBool (b.getLsbD 0))).trans (upper_append_bit b)
  cases hd : b.getLsbD 0 <;> rw [hd] at hb
  · exact ⟨.slaW _, rfl, congrArg Encoded.addrByte hb⟩
  · exact ⟨.slaR _, rfl, congrArg Encoded.addrByte hb⟩

/-! ### State codes (R81) -/

/-- The code of a state is its place in the table. -/
theorem codes_in_order : (Step.writeStates ++ Step.readStates).map (fun n => n.code.toNat) = List.range 43 := rfl

@[simp] theorem ofCode_code (n : Step) : Step.ofCode n.code = some n := by cases n <;> rfl

theorem code_of_ofCode {c : StepCode} {n : Step} (h : Step.ofCode c = some n) : n.code = c := by
  have hplace := congrArg (·[c.toNat]?) codes_in_order
  rw [Step.ofCode] at h
  simp only [List.getElem?_map, h, Option.map_some] at hplace
  obtain ⟨_, hcode⟩ := List.getElem?_eq_some_iff.1 hplace.symm
  rw [List.getElem_range] at hcode
  exact BitVec.eq_of_toNat_eq hcode.symm

theorem ofCode_unused {c : StepCode} (h : 43 ≤ c.toNat) : Step.ofCode c = none := List.getElem?_eq_none h

theorem mem_states (n : Step) : n ∈ Step.writeStates ++ Step.readStates := List.mem_of_getElem? (ofCode_code n)

theorem code_lt (n : Step) : n.code.toNat < 43 :=
  List.mem_range.1 (codes_in_order ▸ List.mem_map_of_mem (mem_states n))

@[simp] theorem encode_instr (n : Step) : encode n.instr = .step n.code := by cases n <;> rfl

@[simp] theorem instr_wf (n : Step) : n.instr.wf = true := by cases n <;> rfl

@[simp] theorem decode_code (n : Step) : decode (.step n.code) = .ok n.instr := by simp [decode]

theorem decode_unused {c : StepCode} (h : 43 ≤ c.toNat) : decode (.step c) = .error (.unusedStepCode c) := by
  simp [decode, ofCode_unused h]

/-! ### Decoding and encoding (R71 to R73, R81, R86) -/

/-- Settles O1: by kind of instruction, a command word by the row the decode order picks for it. -/
theorem decodeOfEncode : Obligations.DecodeOfEncode := by
  intro i hwf
  rcases instr_kinds i with hc | ⟨a, rfl | rfl⟩ | ⟨n, rfl⟩
  · exact decode_encode_command hc hwf
  · exact congrArg Except.ok (decodeAddrByte_slaWrite a)
  · exact congrArg Except.ok (decodeAddrByte_slaRead a)
  · rw [encode_instr, decode_code]

/-- Every word that decodes is the word of a well-formed instruction. -/
theorem exists_encode {w : Encoded} {i : Instr} (h : decode w = .ok i) : ∃ j : Instr, j.wf = true ∧ encode j = w := by
  cases w with
  | cmd w => exact exists_encode_cmd w
  | addrByte b => exact exists_encode_addrByte b
  | step c =>
    rcases hc : Step.ofCode c with _ | n
    · simp [decode, hc] at h
    · exact ⟨n.instr, instr_wf n, (encode_instr n).trans (congrArg Encoded.step (code_of_ofCode hc))⟩

/-- Settles O2: the word is the encoding of some well-formed instruction, which by O1 is the one it decodes to. -/
theorem encodeOfDecode : Obligations.EncodeOfDecode := by
  intro w i h
  obtain ⟨j, hwf, rfl⟩ := exists_encode h
  obtain rfl : j = i := Except.ok.inj ((decodeOfEncode j hwf).symm.trans h)
  exact ⟨rfl, hwf⟩

/-- Settles O3: each clause is the row whose condition on the fields it states as arithmetic of the word. -/
theorem commandDecodeOrder : Obligations.CommandDecodeOrder := by
  intro w
  dsimp only
  rw [← slave_eq_div, ← reg_eq_div, ← value_eq_div, ← reserved_eq_div, ← length_eq_div, ← reserved_toNat,
    ← length_toNat]
  have hdir : ∀ {d : Nat}, w.toNat % 2 = d → CmdWord.dir w = decide (d = 1) := by
    rintro d rfl
    exact dir_eq_decide w
  exact ⟨fun hd hx => decodeCmd_wrReserved (hdir hd) fun h => hx (congrArg BitVec.toNat h),
    fun hd hx => decodeCmd_wr (hdir hd) (BitVec.eq_of_toNat_eq hx),
    fun hd hn => decodeCmd_rd0 (hdir hd) (BitVec.eq_of_toNat_eq hn),
    fun hd hn => decodeCmd_rd1 (hdir hd) (BitVec.eq_of_toNat_eq hn),
    fun hd hn => decodeCmd_rd2 (hdir hd) (BitVec.eq_of_toNat_eq hn),
    fun hd hn => decodeCmd_rdn (hdir hd) hn⟩

/-- Settles O4: the address byte is the slave address followed by the direction bit. -/
theorem addressByteAssembly : Obligations.AddressByteAssembly := fun a =>
  ⟨slaWrite_toNat a, slaRead_toNat a, decodeAddrByte_slaWrite a, decodeAddrByte_slaRead a⟩

/-- Settles O5: the table's list is the model's own, and a code is a place in it. -/
theorem stateCodesDecode : Obligations.StateCodesDecode :=
  ⟨codes_in_order, fun n => ⟨mem_states n, decode_code n⟩, fun _ => decode_unused⟩

/-- Settles O6: fixed words, each evaluated by the decoder. -/
theorem sampleWordsDecode : Obligations.SampleWordsDecode := by
  unfold Obligations.SampleWordsDecode
  decide

/-! ### A word placed for the next step (R70) -/

theorem tableWord_command (w : Nat) : tableWord 32 w = .cmd (BitVec.ofNat 32 w) := if_pos (by decide)

theorem tableWord_code (n : Step) : tableWord 8 n.code.toNat = .step n.code := by
  have hcode : n.code.toNat % 256 < 43 := (Nat.mod_le _ _).trans_lt (code_lt n)
  rw [tableWord, if_neg (by decide), if_pos hcode, BitVec.ofNat_toNat, BitVec.setWidth_eq]

theorem tableWord_addrByte {b : Byte} (h : 43 ≤ b.toNat) : tableWord 8 b.toNat = .addrByte b := by
  rw [tableWord, if_neg (by decide), if_neg (by omega), BitVec.ofNat_toNat, BitVec.setWidth_eq]

theorem step_place_cmd (s : State) (w : CmdWord) : step (s.place (.cmd w)) = exec (decodeCmd w) s := rfl

theorem step_place_code (s : State) (n : Step) : step (s.place (.step n.code)) = exec n.instr { s with step := n } := by
  rw [State.place, ofCode_code]
  rfl

theorem step_place_slaWrite (s : State) (a : SlaveAddr) :
    step (s.place (.addrByte (slaWrite a))) =
      exec .p3AddrW { s with cmd := { s.cmd with slave := a }, step := .p3AddrW } := by
  rw [State.place, slaWrite, addressByte_slave, addressByte_dir]
  rfl

theorem step_place_slaRead (s : State) (a : SlaveAddr) :
    step (s.place (.addrByte (slaRead a))) =
      exec .r2AddrR { s with cmd := { s.cmd with slave := a }, step := .r2AddrR } := by
  rw [State.place, slaRead, addressByte_slave, addressByte_dir]
  rfl

/-- Settles O53: the numbering finds the format of the word, and what `place` does with the format is one turn. -/
theorem placedWordRuns : Obligations.PlacedWordRuns := by
  refine fun s => ⟨fun w => ?_, fun n => ?_, fun a ha => ?_, fun a ha => ?_⟩ <;> rw [State.withFetchWord]
  · rw [tableWord_command, step_place_cmd]
  · rw [tableWord_code, step_place_code]
  · rw [← slaWrite_toNat, tableWord_addrByte (by rw [slaWrite_toNat]; omega), step_place_slaWrite]
  · rw [← slaRead_toNat, tableWord_addrByte (by rw [slaRead_toNat]; omega), step_place_slaRead]

end Sys2Proof.Machine
end

section
/-! SUPPORT. One turn of the engine as a whole: what a poll step writes, where a step leads, how a command ends, and what
the step depends on. -/

namespace Sys2Proof.Machine

/-! ### The step of a sequencer state, by its sample (R91) -/

section
variable {s : State} {n : Step} {f : Flag} {want : Bool}

/-- A wait that goes through is its sample and then a successor, or completion (R91, R123). -/
theorem fired_poll (h : pollOf s.params n = some (f, want)) :
    (∃ next, s.fired n = (s.log (.flagRead f want)).advance next) ∨
      s.fired n = (s.log (.flagRead f want)).complete := by
  cases n <;> cases h
  case w7WaitEnd => exact .inr rfl
  all_goals exact .inl ⟨_, rfl⟩

theorem exec_stayed (hp : pollOf s.params n = some (f, want)) (hf : s.flags.get f ≠ want)
    (hb : s.params.pollBudget ≠ some (s.polls + 1)) : exec n.instr s = .next (s.stayed f want) := by
  obtain ⟨k, hk, -⟩ := exec_poll hp
  rw [hk, wait_stay s k hf hb, State.stayed]

theorem exec_aborted (hp : pollOf s.params n = some (f, want)) (hf : s.flags.get f ≠ want)
    (hb : s.params.pollBudget = some (s.polls + 1)) : exec n.instr s = .next (s.aborted f want) := by
  obtain ⟨k, hk, -⟩ := exec_poll hp
  rw [hk, wait_abort s k hf hb, State.aborted]

end

/-- Settles O32: each end of a wait writes the trace, the result, `polls`, `step` and, when it aborts, `buf`. -/
theorem pollWritesNothing : Obligations.PollWritesNothing := by
  rintro n s t ⟨f, want⟩ hp h
  rcases exec_instr_cases h with rfl | ⟨f', want', -, -, ⟨-, rfl⟩ | ⟨-, rfl⟩⟩
  · rcases fired_poll hp with ⟨next, hfired⟩ | hfired <;> rw [hfired] <;>
      exact ⟨rfl, rfl, rfl, rfl, rfl, rfl, rfl, rfl, rfl⟩
  · exact ⟨rfl, rfl, rfl, rfl, rfl, rfl, rfl, rfl, rfl⟩
  · exact ⟨rfl, rfl, rfl, rfl, rfl, rfl, rfl, rfl, rfl⟩

/-! ### Where a step leads (R108) -/

/-- A step that goes through leads to a listed successor: the four states that choose theirs by an operand list every
choice, and each other state lists the one it has. -/
theorem fired_step_mem_successors (s : State) {n : Step} (hi : n ≠ .idle) : (s.fired n).step ∈ successors n := by
  cases n
  case idle => exact absurd rfl hi
  case p5WaitBtf =>
    rcases afterSelect_cases s.params s.cmd with ⟨-, h⟩ | ⟨-, -, h⟩ | ⟨-, -, h⟩ <;> simp [State.fired, successors, h]
  case r2WaitAddr =>
    rcases firstOfPath_cases s.cmd.length with ⟨-, h⟩ | ⟨-, h⟩ | ⟨-, -, h⟩ <;> simp [State.fired, successors, h]
  case snAddrClr =>
    rcases streamOrTail_cases 0 s.cmd.length with ⟨-, h⟩ | ⟨-, h⟩ <;> simp [State.fired, successors, h]
  case snStreamRead =>
    rcases streamOrTail_cases (s.idx + 1) s.cmd.length with ⟨-, h⟩ | ⟨-, h⟩ <;> simp [State.fired, successors, h]
  all_goals exact List.mem_singleton_self _

/-- Settles O33: a step that goes through takes a listed edge; an unwanted sample stays, or aborts to `IDLE`. -/
theorem controlTransfers : Obligations.ControlTransfers := by
  intro s t h
  refine ⟨fun hi => ?_, fun hi => ?_⟩
  · rw [engineTurn_idle hi] at h
    injection h with h
    exact h.symm
  · rcases engineTurn_cases h with rfl | ⟨f, want, hp, hf, ⟨-, rfl⟩ | ⟨hb, rfl⟩⟩
    · exact .inl (fired_step_mem_successors s hi)
    · exact .inr ⟨f, want, hp, hf, .inl rfl⟩
    · exact .inr ⟨f, want, hp, hf, .inr ⟨rfl, hb⟩⟩

/-! ### How a command ends (R93, R203) -/

theorem mem_of_completes {n : Step} (h : completes n = true) : n ∈ [Step.w7WaitEnd, .s1Read, .s2Read1, .snTailReadC] := by
  by_contra hn
  simp [completes_eq_false hn] at h

/-- `busy` and `addr_matched` have a class of their own, and no other flag has. -/
theorem abortClass_eq (f : Flag) :
    abortClass f = if f = .busy then .busBusyTimeout else if f = .addrMatched then .noAcknowledge
      else .transferTimeout := by
  cases f <;> rfl

/-- Settles O34: of the steps that go through only those of the four completing states write the result, and of the two
ends of an unwanted sample only the abort. -/
theorem commandEndsOnlySo : Obligations.CommandEndsOnlySo := by
  intro n s t h
  rcases exec_instr_cases h with rfl | ⟨f, want, hp, hf, ⟨-, rfl⟩ | ⟨hb, rfl⟩⟩
  · by_cases hc : completes n = true
    · obtain ⟨hstatus, hdone, hstep⟩ := fired_completes s n hc
      exact .inr (.inl ⟨hstatus, hdone, hstep, mem_of_completes hc⟩)
    · exact .inl (fired_result s n (Bool.eq_false_iff.2 hc))
  · exact .inl ⟨rfl, rfl⟩
  · exact .inr (.inr ⟨rfl, rfl, hb, f, want, hp, Bool.eq_not.1 hf, abortClass_eq f⟩)

/-! ### What a step depends on (R94, R238) -/

section
variable {s t : State} (hview : s.engineView = t.engineView)
include hview

/-- Of what lies outside the engine's record the ends of a step take the parameters and the byte read, and nothing else. -/
theorem engineView_ends {n : Step} (hparams : s.params = t.params) (hdata : readsData n = true → s.data = t.data) :
    (t.fired n).engineView = (s.fired n).engineView ∧
      ∀ f want, (t.stayed f want).engineView = (s.stayed f want).engineView ∧
        (t.aborted f want).engineView = (s.aborted f want).engineView := by
  cases s
  cases t
  simp only [State.engineView, EngineView.mk.injEq] at hview
  obtain ⟨rfl, rfl, rfl, rfl, rfl, rfl, rfl, rfl, rfl, rfl⟩ := hview
  cases hparams
  refine ⟨?_, fun f want => ⟨rfl, rfl⟩⟩
  cases n
  case s1Read | s2Read0 | s2Read1 | snStreamRead | snTailReadA | snTailReadB | snTailReadC =>
    cases hdata rfl
    rfl
  all_goals rfl

/-- The same step in two states with one engine record: it goes through in both, stays in both or aborts in both. -/
theorem exec_instr_engineView {n : Step} (hparams : s.params = t.params)
    (hflag : ∀ f want, pollOf s.params n = some (f, want) → s.flags.get f = t.flags.get f)
    (hdata : readsData n = true → s.data = t.data) :
    ∃ s' t', exec n.instr s = .next s' ∧ exec n.instr t = .next t' ∧ t'.engineView = s'.engineView := by
  have hpolls : s.polls = t.polls := congrArg EngineView.polls hview
  obtain ⟨hfired, hfailed⟩ := engineView_ends hview hparams hdata
  rcases hp : pollOf s.params n with _ | ⟨f, want⟩
  · exact ⟨_, _, exec_emit hp, exec_emit (hparams ▸ hp), hfired⟩
  · have hget := hflag f want hp
    have hpt : pollOf t.params n = some (f, want) := hparams ▸ hp
    by_cases hf : s.flags.get f = want
    · obtain ⟨k, hk, hks⟩ := exec_poll hp
      obtain ⟨l, hl, hlt⟩ := exec_poll hpt
      exact ⟨_, _, hk.trans (congrArg _ ((wait_hit s k hf).trans hks)),
        hl.trans (congrArg _ ((wait_hit t l (hget ▸ hf)).trans hlt)), hfired⟩
    · by_cases hb : s.params.pollBudget = some (s.polls + 1)
      · exact ⟨_, _, exec_aborted hp hf hb, exec_aborted hpt (hget ▸ hf) (hparams ▸ hpolls ▸ hb),
          (hfailed f want).2⟩
      · exact ⟨_, _, exec_stayed hp hf hb, exec_stayed hpt (hget ▸ hf) (hparams ▸ hpolls ▸ hb),
          (hfailed f want).1⟩

end

/-- Settles O35: both states perform the step their common `step` names, and with the same answers it ends the same way. -/
theorem answersAloneSteer : Obligations.AnswersAloneSteer := by
  intro s t s' hview hparams hflag hdata h
  have hstep : s.step = t.step := congrArg EngineView.step hview
  obtain ⟨u, t', hs, ht, heq⟩ := exec_instr_engineView hview hparams hflag hdata
  obtain rfl : u = s' := by injection hs.symm.trans h
  exact ⟨t', by rw [State.engineTurn, ← hstep, ht], heq⟩

end Sys2Proof.Machine
end

section
/-! SUPPORT. The host's issue of a legal word, the address-byte primitives, and what the turn in hand runs. -/

namespace Sys2Proof.Machine

/-! ### The issue of a legal word (R95) -/

/-- Settles O7: at `IDLE` the word is accepted. -/
theorem writeIssueLatches : Obligations.WriteIssueLatches :=
  fun _ _ _ s hs => congrArg Host.Outcome.next (issued_idle s hs)

/-- Settles O8: at `IDLE` each of the three words is accepted, with the length it asks for. -/
theorem readIssueLatches : Obligations.ReadIssueLatches := by
  intro slave reg length i n s hi hs
  simp only [List.mem_cons, Prod.mk.injEq, List.not_mem_nil, or_false] at hi
  rcases hi with ⟨rfl, rfl⟩ | ⟨rfl, rfl⟩ | ⟨rfl, rfl⟩ <;> exact congrArg Host.Outcome.next (issued_idle s hs)

/-- A command about to take its first step has done nothing (R95, R111). -/
theorem onScript_issued {t : State} (hstep : t.step = .p1WaitIdle) (hpolls : t.polls = 0) : t.OnScript t.trace :=
  ⟨[], by simp [hpolls, pending_zero], by rw [hstep]; rfl⟩

/-- Settles O43: a word that leads out of `IDLE` begins a write or a read, and logs nothing. -/
theorem issueStartsScript : Obligations.IssueStartsScript := by
  intro w s t hs h ht
  rcases exec_command_cases (isCommand_decodeCmd w) h with ⟨hi, -⟩ | ⟨-, ⟨a, r, v, rfl⟩ | ⟨a, r, n, rfl⟩ | rfl⟩
  · exact absurd hs hi
  · exact onScript_issued (t := s.beginWrite a r v) rfl rfl
  · exact onScript_issued (t := s.beginRead a r n) rfl rfl
  · exact absurd rfl ht

/-! ### The address bytes and `IDLE` (R90, R98, R99) -/

/-- Settles O21: a primitive is one data write, and an address state is its primitive for `cmd.slave` and then `advance`. -/
theorem addressPrimitivesWrite : Obligations.AddressPrimitivesWrite := by
  refine fun slave s => ⟨rfl, rfl, fun t h => ?_, fun t h => ?_⟩ <;>
  · injection h with h
    subst h
    rfl

/-- Settles O22: the step of a state that polls nothing goes through, and that of `IDLE` has no operation. -/
theorem idleChangesNothing : Obligations.IdleChangesNothing := fun _ => exec_emit (n := .idle) rfl

/-! ### What a step runs (R90, R95) -/

theorem step_of_turns_cons {s : State} {turn : Turn} {rest : List Turn} (h : s.turns = turn :: rest) :
    step s = State.take { s with turns := rest } turn := by
  rw [step, State.nextTurn, h]

theorem step_of_turns_nil {s : State} (h : s.turns = []) : step s = s.envFree.engineTurn := by
  rw [step, State.nextTurn, h]

/-- Settles O48: a command word decodes to its row and a state's code to the instruction of that state. -/
theorem stepRunsDecoded : Obligations.StepRunsDecoded := by
  intro s i
  have hcode : decode (.step s.step.code) = .ok i → s.step.instr = i :=
    fun hi => Except.ok.inj ((decode_code s.step).symm.trans hi)
  refine ⟨fun w rest h hi => ?_, fun rest h hi => ?_, fun h hi => ?_⟩
  · obtain rfl : decodeCmd w = i := Except.ok.inj hi
    exact step_of_turns_cons h
  · obtain rfl := hcode hi
    exact step_of_turns_cons h
  · obtain rfl := hcode hi
    exact step_of_turns_nil h

end Sys2Proof.Machine
end

section
/-! SUPPORT. The whole script of a command in numbers: a write's, and a read's from its head and from its path by length. -/

namespace Sys2Proof.Machine

/-! ### The data reads of a script (R189) -/

/-- The answer of a data read. -/
def Atom.readByte : Atom → Option Byte
  | .op (.dataRead b) => some b
  | _ => none

/-- A wait and a data read for each byte: what RDN streams (R178, R179). -/
def streamed (bytes : List Byte) : List Atom := bytes.flatMap fun b => [.poll .btf true, .op (.dataRead b)]

/-- The cell of a filled buffer is the data read of its byte. -/
theorem rxAt_map_byte {bytes : List Byte} {i : Nat} {b : Byte} (h : bytes[i]? = some b) :
    rxAt (bytes.map .byte) i = [.op (.dataRead b)] := by
  simp [rxAt, h]

/-- Where the buffer is full, the stream is the wait and the read of each byte in order (R188). -/
theorem streamScript_map_byte (rest : List Byte) (bytes : List Byte) :
    streamScript ((bytes ++ rest).map .byte) bytes.length = streamed bytes := by
  induction bytes using List.reverseRecOn generalizing rest with
  | nil => rfl
  | append_singleton bytes b ih =>
    have hread : rxAt ((bytes ++ ([b] ++ rest)).map .byte) bytes.length = _ := rxAt_map_byte (b := b) (by simp)
    rw [List.length_append, List.append_assoc, List.length_singleton, streamScript, hread, ih]
    simp [streamed]

theorem streamed_length (bytes : List Byte) : (streamed bytes).length = 2 * bytes.length := by
  simp [streamed, List.length_flatMap, Nat.mul_comm]

/-- Of the operations a stream has data reads only. -/
theorem count_streamed {e : Event} (he : ∀ b, e ≠ .dataRead b) (bytes : List Byte) :
    (streamed bytes).count (.op e) = 0 := by
  simp [streamed, List.count_eq_zero, he]

theorem streamed_reads (bytes : List Byte) : (streamed bytes).filterMap Atom.readByte = bytes := by
  induction bytes with
  | nil => rfl
  | cons b bytes ih => exact congrArg (b :: ·) ih

/-! ### The path of a read after dispatch (R166, R175, R188) -/

/-- The numbers of a path of `n` atoms that reads `bytes`: no START, one STOP, one `AddrClear`, one NACK. -/
structure PathNumbers (path : List Atom) (n : Nat) (bytes : List Byte) : Prop where
  length : path.length = n
  starts : path.count (.op (.bitSet .start)) = 0
  stops : path.count (.op (.bitSet .stop)) = 1
  clears : path.count (.op .addrClear) = 1
  nacks : path.count (.op (.bitClear .ackEnable)) = 1
  reads : path.filterMap Atom.readByte = bytes

/-- What a read does after dispatch: `wholeScript` without the head. -/
def pathScript (buf : List BufCell) (length : Nat) : List Atom :=
  if length = 1 then oneScript ++ rxAt buf 0
  else if length = 2 then twoScript ++ rxAt buf 0 ++ rxAt buf 1
  else .op .addrClear :: streamScript buf (length - 3) ++ drainScript buf length ++
    [.poll .busy false, .poll .rxNotEmpty true] ++ rxAt buf (length - 1)

theorem wholeScript_read {c : Command} (hd : c.dir = .read) (p : Params) (buf : List BufCell) :
    wholeScript p c buf = headScript p c ++ pathScript buf c.length := by
  rw [wholeScript, hd]
  rfl

theorem rd1_pathNumbers (a : Byte) : PathNumbers (pathScript ([a].map .byte) 1) 5 [a] :=
  ⟨rfl, rfl, rfl, rfl, rfl, rfl⟩

theorem rd2_pathNumbers (a b : Byte) : PathNumbers (pathScript ([a, b].map .byte) 2) 7 [a, b] :=
  ⟨rfl, rfl, rfl, rfl, rfl, rfl⟩

/-- RDN reads all but three bytes in the stream and those three in the tail. -/
theorem pathScript_rdn (bytes : List Byte) (a b c : Byte) :
    pathScript ((bytes ++ [a, b, c]).map .byte) (bytes.length + 3) =
      .op .addrClear :: streamed bytes ++
        [.poll .btf true, .op (.bitClear .ackEnable), .op (.dataRead a), .op (.bitSet .stop), .op (.dataRead b),
          .poll .busy false, .poll .rxNotEmpty true, .op (.dataRead c)] := by
  have ha : rxAt ((bytes ++ [a, b, c]).map .byte) (bytes.length + 3 - 3) = _ := rxAt_map_byte (b := a) (by simp)
  have hb : rxAt ((bytes ++ [a, b, c]).map .byte) (bytes.length + 3 - 2) = _ := rxAt_map_byte (b := b) (by simp)
  have hc : rxAt ((bytes ++ [a, b, c]).map .byte) (bytes.length + 3 - 1) = _ := rxAt_map_byte (b := c) (by simp)
  rw [pathScript, if_neg (by omega), if_neg (by omega), drainScript, ha, hb, hc, Nat.add_sub_cancel,
    streamScript_map_byte]
  simp

theorem rdn_pathNumbers (bytes : List Byte) (a b c : Byte) :
    PathNumbers (pathScript ((bytes ++ [a, b, c]).map .byte) (bytes.length + 3)) (2 * bytes.length + 9)
      (bytes ++ [a, b, c]) := by
  rw [pathScript_rdn]
  constructor
  case length => simp [streamed_length]
  case reads =>
    rw [List.filterMap_append]
    exact congrArg (· ++ [a, b, c]) (streamed_reads bytes)
  all_goals simp [count_streamed]

/-- The path of a read by the number of its bytes: one, two, or three and more. -/
theorem pathNumbers {bytes : List Byte} (h : 1 ≤ bytes.length) :
    PathNumbers (pathScript (bytes.map .byte) bytes.length)
      (if bytes.length = 1 then 5 else if bytes.length = 2 then 7 else 2 * bytes.length + 3) bytes := by
  rcases Nat.lt_or_ge bytes.length 3 with hlt | hge
  · match bytes with
    | [a] => exact rd1_pathNumbers a
    | [a, b] => exact rd2_pathNumbers a b
  · have hthree : (bytes.drop (bytes.length - 3)).length = 3 := by rw [List.length_drop]; omega
    obtain ⟨a, b, c, hlast⟩ := List.length_eq_three.1 hthree
    obtain ⟨front, rfl⟩ : ∃ front, bytes = front ++ [a, b, c] :=
      ⟨_, by rw [← hlast, List.take_append_drop]⟩
    simpa [Nat.mul_add] using rdn_pathNumbers front a b c

/-! ### The whole script (R124, R189) -/

/-- The numbers of a read's head: two STARTs, and two control writes that only `READ_INIT` makes (R149). -/
theorem headScript_numbers (p : Params) (c : Command) :
    (headScript p c).length + (if p.readInit then 0 else 2) = 15 ∧
      (headScript p c).count (.op (.bitSet .start)) = 2 ∧ (headScript p c).count (.op (.bitSet .stop)) = 0 ∧
      (headScript p c).count (.op .addrClear) = 0 ∧ (headScript p c).count (.op (.bitClear .ackEnable)) = 0 ∧
      (headScript p c).filterMap Atom.readByte = [] := by
  obtain ⟨-, -, _ | _⟩ := p <;> exact ⟨rfl, rfl, rfl, rfl, rfl, rfl⟩

theorem wholeScript_write {c : Command} (hd : c.dir = .write) (p : Params) (buf : List BufCell) :
    wholeScript p c buf = selectScript c ++ tailScript p c := by
  rw [wholeScript, hd]

/-- Settles O45: a write's script is a fixed list, and a read's numbers add up from its head and its path. -/
theorem scriptInNumbers : Obligations.ScriptInNumbers := by
  refine fun p c bytes => ⟨fun hd => ?_, fun hd hlen hbytes => ?_⟩
  · rw [wholeScript_write hd]
    exact ⟨rfl, rfl, rfl, rfl, rfl⟩
  · obtain ⟨hl, hstart, hstop, hclear, hnack, hreads⟩ := headScript_numbers p c
    obtain ⟨hl', hstart', hstop', hclear', hnack', hreads'⟩ := pathNumbers (hbytes ▸ hlen)
    rw [hbytes] at hl' hstart' hstop' hclear' hnack' hreads'
    simp only [wholeScript_read hd, List.count_append, List.length_append, hstart, hstop, hclear, hnack, hstart',
      hstop', hclear', hnack', hl', true_and]
    refine ⟨by split_ifs at hl ⊢ <;> omega, ?_⟩
    exact List.filterMap_append.trans (congrArg₂ (· ++ ·) hreads hreads')

end Sys2Proof.Machine
end

section
/-! SUPPORT. The states both commands share and those of the write tail: what each emits, and how each wait ends. -/

namespace Sys2Proof.Machine

/-! ### The emit states (R112, R114, R118, R120, R122) -/

/-- Settles O11: the operation of both states is `BitSet(start)`. -/
theorem startStatesEmit : Obligations.StartStatesEmit := by
  intro i next s hi
  simp only [List.mem_cons, Prod.mk.injEq, List.not_mem_nil, or_false] at hi
  rcases hi with ⟨rfl, rfl⟩ | ⟨rfl, rfl⟩
  · exact exec_emit (n := .p2Start) rfl
  · exact exec_emit (n := .r1Restart) rfl

/-- Settles O12: the operation of all four states is `BitSet(stop)`. -/
theorem stopStatesEmit : Obligations.StopStatesEmit := by
  intro i next s hi
  simp only [List.mem_cons, Prod.mk.injEq, List.not_mem_nil, or_false] at hi
  rcases hi with ⟨rfl, rfl⟩ | ⟨rfl, rfl⟩ | ⟨rfl, rfl⟩ | ⟨rfl, rfl⟩
  · exact exec_emit (n := .w6Stop) rfl
  · exact exec_emit (n := .s1Stop) rfl
  · exact exec_emit (n := .s2Stop) rfl
  · exact exec_emit (n := .snTailStop) rfl

theorem ofNat_eq_slaWrite (a : SlaveAddr) : BitVec.ofNat 8 (2 * a.toNat) = slaWrite a := by
  rw [← slaWrite_toNat, BitVec.ofNat_toNat, BitVec.setWidth_eq]

theorem ofNat_eq_slaRead (a : SlaveAddr) : BitVec.ofNat 8 (2 * a.toNat + 1) = slaRead a := by
  rw [← slaRead_toNat, BitVec.ofNat_toNat, BitVec.setWidth_eq]

/-- Settles O14: each state writes its address byte, and the byte is twice the address, plus one for a read. -/
theorem addressStatesEmit : Obligations.AddressStatesEmit := by
  intro s
  dsimp only
  rw [ofNat_eq_slaWrite, ofNat_eq_slaRead]
  exact ⟨exec_emit (n := .p3AddrW) rfl, exec_emit (n := .r2AddrR) rfl⟩

/-- Settles O15: each state writes its byte of the latched command. -/
theorem byteStatesEmit : Obligations.ByteStatesEmit :=
  fun _ => ⟨exec_emit (n := .p4Reg) rfl, exec_emit (n := .w5Value) rfl⟩

/-! ### The waits (R91, R113, R115 to R117, R119, R121, R123) -/

/-- The abort in full: nothing but the sample, the result and the forgotten cells of `buf` (R202 to R204). -/
theorem aborted_eq (s : State) (f : Flag) (want : Bool) :
    s.aborted f want = { s with
      trace := s.trace ++ [.flagRead f !want], polls := 0, status := abortClass f, done := true, step := .idle
      buf := List.replicate s.buf.length .unspecified } := by
  rw [← List.map_const']
  rfl

/-- The three ends of a wait: it goes through on the wanted sample, and on another it stays and counts, or aborts when
the budget is spent (R91, R202). -/
theorem exec_poll_ends {s : State} {n : Step} {f : Flag} {want : Bool} (hp : pollOf s.params n = some (f, want)) :
    (s.flags.get f = want → exec n.instr s = .next (s.fired n)) ∧
    (s.flags.get f = (!want) → s.params.pollBudget ≠ some (s.polls + 1) → exec n.instr s = .next { s with
      trace := s.trace ++ [.flagRead f !want], polls := s.polls + 1 }) ∧
    (s.flags.get f = (!want) → s.params.pollBudget = some (s.polls + 1) → exec n.instr s = .next { s with
      trace := s.trace ++ [.flagRead f !want], polls := 0, status := abortClass f, done := true, step := .idle
      buf := List.replicate s.buf.length .unspecified }) := by
  refine ⟨fun hf => exec_fired fun f' want' hp' => ?_, fun hf hb => exec_stayed hp (Bool.eq_not.1 hf) hb,
    fun hf hb => ?_⟩
  · cases hp.symm.trans hp'
    exact hf
  · rw [exec_aborted hp (Bool.eq_not.1 hf) hb, aborted_eq]

/-- Settles O23: each of the six states is a wait with the flag, the value and the successor of its row. -/
theorem writePollsWait : Obligations.WritePollsWait := by
  intro i f want next code s hi
  simp only [List.mem_cons, Prod.mk.injEq, List.not_mem_nil, or_false] at hi
  rcases hi with ⟨rfl, rfl, rfl, rfl, rfl⟩ | ⟨rfl, rfl, rfl, rfl, rfl⟩ | ⟨rfl, rfl, rfl, rfl, rfl⟩ |
    ⟨rfl, rfl, rfl, rfl, rfl⟩ | ⟨rfl, rfl, rfl, rfl, rfl⟩ | ⟨rfl, rfl, rfl, rfl, rfl⟩
  · exact exec_poll_ends (n := .p1WaitIdle) rfl
  · exact exec_poll_ends (n := .p2WaitSb) rfl
  · exact exec_poll_ends (n := .p3WaitAddr) rfl
  · exact exec_poll_ends (n := .p3WaitTra) rfl
  · exact exec_poll_ends (n := .p4WaitTxe) rfl
  · exact exec_poll_ends (n := .w6WaitBtf) rfl

theorem afterSelect_eq (p : Params) (c : Command) :
    afterSelect p c =
      if c.dir = .write then .w5Value else if p.readInit = true then .r0AckSet else .r1Restart := by
  rcases afterSelect_cases p c with ⟨hd, h⟩ | ⟨hd, hr, h⟩ | ⟨hd, hr, h⟩ <;> simp [*]

/-- Settles O25: the wait goes through to the state the command selects. -/
theorem selectWaitBranches : Obligations.SelectWaitBranches := by
  intro s
  rw [← afterSelect_eq]
  exact exec_poll_ends (n := .p5WaitBtf) rfl

/-- Settles O27: the wait is for the parameter's flag, which also gives the class, and going through completes. -/
theorem finalWaitCompletes : Obligations.FinalWaitCompletes := by
  intro s f code h
  have hflag : finalFlag s.params.finalWait = f ∧ abortClass f = code := by
    cases hw : s.params.finalWait <;> rw [hw] at h <;> cases h <;> exact ⟨rfl, rfl⟩
  obtain ⟨rfl, rfl⟩ := hflag
  exact exec_poll_ends (n := .w7WaitEnd) rfl

end Sys2Proof.Machine
end

section
/-! SUPPORT. The waits of the read phase and of its three paths: how each ends. -/

namespace Sys2Proof.Machine

/-! ### The waits of a read (R145, R147, R164, R171, R178, R180, R185, R186) -/

/-- Settles O24: each of the seven states is a wait with the flag, the value and the successor of its row. -/
theorem readPollsWait : Obligations.ReadPollsWait := by
  intro i f want next code s hi
  simp only [List.mem_cons, Prod.mk.injEq, List.not_mem_nil, or_false] at hi
  rcases hi with ⟨rfl, rfl, rfl, rfl, rfl⟩ | ⟨rfl, rfl, rfl, rfl, rfl⟩ | ⟨rfl, rfl, rfl, rfl, rfl⟩ |
    ⟨rfl, rfl, rfl, rfl, rfl⟩ | ⟨rfl, rfl, rfl, rfl, rfl⟩ | ⟨rfl, rfl, rfl, rfl, rfl⟩ |
    ⟨rfl, rfl, rfl, rfl, rfl⟩
  · exact exec_poll_ends (n := .r1WaitSb) rfl
  · exact exec_poll_ends (n := .s1WaitRxne) rfl
  · exact exec_poll_ends (n := .s2WaitBtf) rfl
  · exact exec_poll_ends (n := .snStreamWait) rfl
  · exact exec_poll_ends (n := .snTailWaitBtf) rfl
  · exact exec_poll_ends (n := .snTailWaitIdle) rfl
  · exact exec_poll_ends (n := .snTailWaitRxne) rfl

/-- Settles O26: the wait goes through to the first state of the path, whatever the length. -/
theorem addressWaitDispatches : Obligations.AddressWaitDispatches := by
  intro s
  obtain ⟨hfired, hstayed, haborted⟩ := exec_poll_ends (s := s) (n := .r2WaitAddr) rfl
  exact ⟨fun hf _ => hfired hf, hstayed, haborted⟩

end Sys2Proof.Machine
end

section
/-! SUPPORT. The states of the read paths that emit: what each writes to the control bits, the address-matched condition
and `buf`, and where it goes. -/

namespace Sys2Proof.Machine

/-! ### The control bits and the address-matched condition (R142, R143, R161, R162, R168 to R170, R177, R181) -/

/-- Settles O13: the operations are `SIG_ACK`, `SIG_NACK` in all three states, `SIG_POS_CLR` and `SIG_POS_SET`. -/
theorem controlBitStatesEmit : Obligations.ControlBitStatesEmit := by
  refine fun s => ⟨exec_emit (n := .r0AckSet) rfl, fun i next hi => ?_, exec_emit (n := .r0PosClr) rfl,
    exec_emit (n := .s2PosSet) rfl⟩
  simp only [List.mem_cons, Prod.mk.injEq, List.not_mem_nil, or_false] at hi
  rcases hi with ⟨rfl, rfl⟩ | ⟨rfl, rfl⟩ | ⟨rfl, rfl⟩
  · exact exec_emit (n := .s1AckClr) rfl
  · exact exec_emit (n := .s2AckClr) rfl
  · exact exec_emit (n := .snTailAckClr) rfl

/-- Settles O16: the operation of both states is `AddrClear`. -/
theorem addrClearStatesEmit : Obligations.AddrClearStatesEmit := by
  intro i next s hi
  simp only [List.mem_cons, Prod.mk.injEq, List.not_mem_nil, or_false] at hi
  rcases hi with ⟨rfl, rfl⟩ | ⟨rfl, rfl⟩
  · exact exec_emit (n := .s1AddrClr) rfl
  · exact exec_emit (n := .s2AddrClr) rfl

/-- The first branch of RDN, with R177's `cmd.length - 3 > 0` as a bound on the length itself. -/
theorem streamOrTail_zero (length : Nat) :
    streamOrTail 0 length = if 3 < length then .snStreamWait else .snTailWaitBtf := by
  simp only [streamOrTail, Nat.sub_pos_iff_lt]

/-- Settles O17: the operation is `AddrClear`, and with `idx` at 0 a byte is streamed exactly when the length exceeds
the three of the tail. -/
theorem streamOpens : Obligations.StreamOpens := by
  intro s
  rw [← streamOrTail_zero]
  exact exec_emit (n := .snAddrClr) rfl

/-! ### The data reads (R165, R173, R174, R179, R182, R184, R187) -/

/-- Settles O18: each state is `DATA_RX` into its cell. -/
theorem shortReadsTakeByte : Obligations.ShortReadsTakeByte :=
  fun _ => ⟨exec_emit (n := .s1Read) rfl, exec_emit (n := .s2Read0) rfl, exec_emit (n := .s2Read1) rfl⟩

/-- Settles O19: the state is `DATA_RX(idx)`, and the branch is `streamOrTail` at the new `idx`. -/
theorem streamedReadTakesByte : Obligations.StreamedReadTakesByte := fun _ => exec_emit (n := .snStreamRead) rfl

/-- Settles O20: each state is `DATA_RX` into the cell counted from the end of `buf`. -/
theorem tailReadsTakeByte : Obligations.TailReadsTakeByte :=
  fun _ => ⟨exec_emit (n := .snTailReadA) rfl, exec_emit (n := .snTailReadB) rfl, exec_emit (n := .snTailReadC) rfl⟩

end Sys2Proof.Machine
end

section
/-! SUPPORT. Failed waits and illegal commands (60_exceptions.md): the count of failed samples under a budget, a wait whose
flag never shows the wanted value, with and without a budget, the host's words and the platform out of turn, and the
accelerometer driver. -/

namespace Sys2Proof.Machine

/-! ### The count of failed samples stays below the budget (R107, R202) -/

theorem budgetOk_iff {s : State} : s.BudgetOk ↔ ∀ n, s.params.pollBudget = some n → s.polls < n := by
  unfold State.BudgetOk
  cases s.params.pollBudget <;> simp

/-- A turn that does not count, or starts the count anew, keeps the bound. -/
theorem budgetOk_of_le {s t : State} (h : s.BudgetOk) (hparams : t.params = s.params) (hpolls : t.polls ≤ s.polls) :
    t.BudgetOk :=
  budgetOk_iff.2 fun n hn => hpolls.trans_lt (budgetOk_iff.1 h n (hparams ▸ hn))

/-- A failed sample that does not spend the budget counts up to a value still below it (R202). -/
theorem budgetOk_stayed {s : State} (h : s.BudgetOk) (hb : s.params.pollBudget ≠ some (s.polls + 1)) (f : Flag)
    (want : Bool) : (s.stayed f want).BudgetOk := by
  refine budgetOk_iff.2 fun n (hn : s.params.pollBudget = some n) => ?_
  have hlt : s.polls < n := budgetOk_iff.1 h n hn
  have hne : s.polls + 1 ≠ n := fun he => hb (he ▸ hn)
  exact lt_of_le_of_ne hlt hne

theorem fired_polls_le (s : State) (n : Step) : (s.fired n).polls ≤ s.polls := by
  cases n
  case idle => exact le_rfl
  all_goals exact Nat.zero_le _

/-- Only a failed sample counts; every other turn leaves the count or sets it to 0 (R91 to R95). -/
theorem budgetOk_keptByTurns : KeptByTurns State.BudgetOk where
  script _ _ h := h
  env _ _ _ _ _ _ _ _ h := h
  fired s h := budgetOk_of_le h (fired_params s _) (fired_polls_le s _)
  stayed _ f want _ hb h := budgetOk_stayed h hb f want
  aborted _ _ _ _ h := budgetOk_of_le h rfl (Nat.zero_le _)
  marked _ _ h := h
  beginWrite _ _ _ _ _ h := budgetOk_of_le h rfl (Nat.zero_le _)
  beginRead _ _ _ _ _ _ h := budgetOk_of_le h rfl (Nat.zero_le _)
  rejected _ _ h := h
  reset _ h := budgetOk_of_le h rfl (Nat.zero_le _)
  platform _ _ _ _ h := h

/-- Settles O39: each agent's turn keeps the bound, the engine's failed sample by the test that aborts. -/
theorem pollCountBounded : Obligations.PollCountBounded :=
  fun _ _ hs h => budgetOk_keptByTurns.step hs h

/-! ### A wait whose flag never shows the wanted value (R200, R202 to R204) -/

/-- The state after `k` failed samples of `f`, none of which spends the budget. -/
def State.waited (s : State) (f : Flag) (want : Bool) (k : Nat) : State :=
  { s with polls := s.polls + k, trace := s.trace ++ List.replicate k (.flagRead f !want) }

theorem waited_zero (s : State) (f : Flag) (want : Bool) : s.waited f want 0 = s := by
  simp [State.waited]

/-- One failed sample more is one more unwanted sample that stays (R91). -/
theorem waited_succ (s : State) (f : Flag) (want : Bool) (k : Nat) :
    s.waited f want (k + 1) = (s.waited f want k).stayed f want := by
  simp only [State.waited, State.stayed, State.log, List.replicate_succ', List.append_assoc, Nat.add_assoc]

section
variable {s : State} {f : Flag} {want : Bool} (hp : pollOf s.params s.step = some (f, want))
  (hf : s.flags.get f = (!want))
include hp hf

/-- Engine turns at an unwanted flag count up while none of them spends the budget (R91, R200). -/
theorem run_waited {k : Nat} (hb : ∀ j < k, s.params.pollBudget ≠ some (s.polls + j + 1)) (rest : List Turn) :
    core.run k { s with turns := List.replicate k .engine ++ rest } =
      .next { s.waited f want k with turns := rest } := by
  induction k generalizing rest with
  | zero => rw [waited_zero]; rfl
  | succ k ih =>
    have hrun := ih (fun j hj => hb j (hj.trans k.lt_succ_self)) (.engine :: rest)
    have hstay : exec s.step.instr { s.waited f want k with turns := rest } =
        .next { s.waited f want (k + 1) with turns := rest } := by
      rw [waited_succ]
      exact exec_stayed (s := { s.waited f want k with turns := rest }) hp (Bool.eq_not.1 hf) (hb k k.lt_succ_self)
    rw [List.replicate_succ', List.append_assoc, List.singleton_append, core_run_add 1 hrun]
    exact core_run_succ (k := 0) hstay

/-- The engine turn whose unwanted sample spends the budget ends the run by abort (R202 to R204). -/
theorem run_aborted {k : Nat} (hb : ∀ j < k, s.params.pollBudget ≠ some (s.polls + j + 1))
    (hlast : s.params.pollBudget = some (s.polls + k + 1)) :
    core.run (k + 1) { s with turns := List.replicate (k + 1) .engine } =
      .next (({ s.waited f want k with turns := [] } : State).aborted f want) := by
  have habort : exec s.step.instr { s.waited f want k with turns := [] } =
      .next (({ s.waited f want k with turns := [] } : State).aborted f want) :=
    exec_aborted hp (Bool.eq_not.1 hf) hlast
  rw [List.replicate_succ', core_run_add 1 (run_waited hp hf hb [.engine])]
  exact core_run_succ (k := 0) habort

end

/-- With no budget an engine step leaves the result or completes (R200). -/
theorem engineTurn_status_of_no_budget {s t : State} (hb : s.params.pollBudget = none) (h : s.engineTurn = .next t) :
    t.status = s.status ∨ t.status = .ok := by
  rcases engineTurn_cases h with rfl | ⟨f, want, -, -, ⟨-, rfl⟩ | ⟨hspent, -⟩⟩
  · by_cases hc : completes s.step = true
    · exact .inr (fired_completes s _ hc).1
    · exact .inl (fired_result s _ (Bool.eq_false_iff.2 hc)).1
  · exact .inl rfl
  · simp [hb] at hspent

/-- Settles O46: with no budget no sample is the one that spends it, so the wait goes on as long as the engine has turns. -/
theorem baselineHangs : Obligations.BaselineHangs := by
  refine fun s hb => ⟨fun t h => engineTurn_status_of_no_budget hb h, fun f want k hp hf => ?_⟩
  have hrun := run_waited hp hf (k := k) (fun j _ => by simp [hb]) []
  rwa [List.append_nil] at hrun

/-- Settles O47: below the budget every sample stays, and the last one aborts. -/
theorem budgetSpentAborts : Obligations.BudgetSpentAborts := by
  intro s n f want hb hn hpolls hp hf
  have hstays : ∀ j, j + 1 < n → s.params.pollBudget ≠ some (s.polls + j + 1) := fun j hj he => by
    have : n = s.polls + j + 1 := Option.some.inj (hb.symm.trans he)
    omega
  refine ⟨fun k hk => ?_, ?_⟩
  · have hrun := run_waited hp hf (k := k) (fun j hj => hstays j (by omega)) []
    rw [List.append_nil] at hrun
    rw [hrun, State.waited, hpolls, Nat.zero_add]
  · obtain ⟨m, rfl⟩ := Nat.exists_eq_add_of_le' hn
    rw [run_aborted hp hf (k := m) (fun j hj => hstays j (by omega)) (by rw [hb, hpolls, Nat.zero_add]), aborted_eq,
      abortClass_eq, List.replicate_succ', ← List.append_assoc]
    rfl

/-! ### The host's words and the platform out of turn (R207, R214, R215) -/

/-- At `IDLE` a rejection writes the result and nothing else (R207). -/
theorem raise_reject_idle {s : State} (h : s.step = .idle) :
    s.raise .reject = { s with status := .rejected, done := true } := by
  rw [State.raise, ← h]

/-- Settles O9: both rows are the issue of a word that is rejected. -/
theorem illegalWordRejected : Obligations.IllegalWordRejected := by
  intro slave reg value reserved i s hi hs
  have hissue : exec i s = .next (s.issued (·.raise .reject)) := by
    simp only [List.mem_cons, List.not_mem_nil, or_false] at hi
    rcases hi with rfl | rfl <;> rfl
  rw [hissue, issued_idle s hs, raise_reject_idle hs]

/-- Settles O10: every word that can be issued is handled the same while a command runs. -/
theorem issueWhileRunningMarks : Obligations.IssueWhileRunningMarks :=
  fun w s hs => ((issueTurn_cases s w).resolve_right fun h => hs h.1).2

/-- Settles O28: the issue of a command word, the write of an address byte and the step of a sequencer state, a wait or
not, each answer a state. -/
theorem everyInstructionRuns : Obligations.EveryInstructionRuns := by
  intro i s
  rcases instr_kinds i with hc | ⟨a, rfl | rfl⟩ | ⟨n, rfl⟩
  · obtain ⟨accept, hexec, -⟩ := exec_command s hc
    exact ⟨_, hexec⟩
  · exact ⟨_, rfl⟩
  · exact ⟨_, rfl⟩
  · rcases hp : pollOf s.params n with _ | ⟨f, want⟩
    · exact ⟨_, exec_emit hp⟩
    · obtain ⟨k, hk, -⟩ := exec_poll hp
      exact ⟨_, hk⟩

/-- Settles O52: the two branches of the platform's turn. -/
theorem platformOnlyBetweenCommands : Obligations.PlatformOnlyBetweenCommands :=
  fun _ _ _ => ⟨fun h => if_pos h, fun h => if_neg h⟩

/-! ### The accelerometer driver (R219) -/

/-- Dropping the two low bits of the big-endian value: the sample is the floor of its quarter. -/
theorem axisSample_bounds (high low : Byte) :
    4 * axisSample high low ≤ (high ++ low).toInt ∧ (high ++ low).toInt < 4 * axisSample high low + 4 := by
  unfold axisSample
  omega

/-- A sample fits in 14 bits, signed. -/
theorem axisSample_range (high low : Byte) : -8192 ≤ axisSample high low ∧ axisSample high low < 8192 := by
  obtain ⟨hle, hlt⟩ := axisSample_bounds high low
  have hlow : -32768 ≤ (high ++ low).toInt := BitVec.le_toInt (high ++ low)
  have hhigh : (high ++ low).toInt < 32768 := BitVec.toInt_lt
  omega

/-- A sequence of two computations answers a value exactly when both do. -/
theorem except_bind_eq_ok {ε α β : Type} {x : Except ε α} {k : α → Except ε β} {b : β} :
    x >>= k = .ok b ↔ ∃ a, x = .ok a ∧ k a = .ok b := by
  cases x <;> simp [bind, Except.bind]

/-- An axis has a sample exactly where the host gets both its bytes, and it is the sample of the two (R206, R217). -/
theorem accelSample_ok {s : State} {a : Axis} {v : Int} :
    s.accelSample a = .ok v ↔ ∃ high low, s.hostReadBuf (2 * a.number) = .ok high ∧
      s.hostReadBuf (2 * a.number + 1) = .ok low ∧ axisSample high low = v := by
  simp only [State.accelSample, except_bind_eq_ok, pure, Except.pure, Except.ok.injEq, exists_and_left]

/-- Settles O60: the samples by the arithmetic above, and the axes by what the host's reading of `buf` requires. -/
theorem driverWordsAndSamples : Obligations.DriverWordsAndSamples := by
  refine ⟨by decide, by decide, fun high low => ?_, fun s b₀ b₁ b₂ b₃ b₄ b₅ hdone hok hread hbuf => ?_, fun s a v h => ?_⟩
  · obtain ⟨hle, hlt⟩ := axisSample_bounds high low
    exact ⟨hle, hlt, axisSample_range high low⟩
  · have hcell : ∀ {i : Nat} {b : Byte}, [b₀, b₁, b₂, b₃, b₄, b₅][i]? = some b → s.hostReadBuf i = .ok b := by
      intro i b hb
      exact hostReadBuf_ok.2 ⟨hdone, hok, hread, by rw [hbuf, List.getElem?_map, hb]; rfl⟩
    exact ⟨accelSample_ok.2 ⟨b₀, b₁, hcell rfl, hcell rfl, rfl⟩, accelSample_ok.2 ⟨b₂, b₃, hcell rfl, hcell rfl, rfl⟩,
      accelSample_ok.2 ⟨b₄, b₅, hcell rfl, hcell rfl, rfl⟩⟩
  · obtain ⟨high, low, hhigh, -, -⟩ := accelSample_ok.1 h
    obtain ⟨hdone, hok, hread, -⟩ := hostReadBuf_ok.1 hhigh
    exact ⟨hdone, hok, hread⟩

end Sys2Proof.Machine
end

section
/-! SUPPORT. What outlives a command and what reset writes (70_reset_and_hazards.md). -/

namespace Sys2Proof.Machine

/-! ### The control bits after a read (R243) -/

/-- The state of each path that takes the read's last byte completes without a wait (R166, R175, R188), and it is none
of those that write a control bit. -/
theorem lastRead_emits (p : Params) {n : Step} (h : n ∈ [Step.s1Read, .s2Read1, .snTailReadC]) :
    pollOf p n = none ∧ completes n = true ∧
    n ∉ [Step.r0AckSet, .s1AckClr, .s2AckClr, .snTailAckClr] ∧ n ∉ [Step.r0PosClr, .s2PosSet] := by
  simp only [List.mem_cons, List.not_mem_nil, or_false] at h
  rcases h with rfl | rfl | rfl <;> exact ⟨rfl, rfl, by decide, by decide⟩

/-- The control bits as the read's last state finds them, by the invariants at that state (R15, R30). -/
theorem controlBits_lastRead {s : State} (hpolicy : s.PolicyOk) (hpos : s.PosOk)
    (h : s.step ∈ [Step.s1Read, .s2Read1, .snTailReadC]) :
    (s.ackPolicy = false ∧ s.ackEnable = false) ∧ (s.step = .s2Read1 → s.pos = true) ∧
    (s.step ≠ .s2Read1 → s.params.readInit = true → s.pos = false) := by
  unfold State.PolicyOk at hpolicy
  unfold State.PosOk at hpos
  simp only [List.mem_cons, List.not_mem_nil, or_false] at h
  rcases h with h | h | h <;> rw [h] at hpolicy hpos ⊢
  case inr.inl => exact ⟨hpolicy, fun _ => hpos, fun hne => absurd rfl hne⟩
  all_goals exact ⟨hpolicy, nofun, fun _ => hpos⟩

/-- Settles O41: the last state completes and leaves the control bits as it finds them. -/
theorem readLeavesControlBits : Obligations.ReadLeavesControlBits := by
  intro s hpolicy hpos h
  obtain ⟨hemit, hc, hack, hposStates⟩ := lastRead_emits s.params h
  obtain ⟨⟨hackPolicy, hackEnable⟩, hset, hclear⟩ := controlBits_lastRead hpolicy hpos h
  obtain ⟨hstatus, hdone, hstep⟩ := fired_completes s s.step hc
  refine ⟨s.fired s.step, exec_emit hemit, hstep, hstatus, hdone, ?_⟩
  rw [fired_ackEnable s hack, fired_ackPolicy s hack, fired_pos s hposStates]
  exact ⟨hackEnable, hackPolicy, hset, hclear⟩

/-! ### The reset event (R230) -/

/-- Settles O50: the turn is `State.resetEvent` on the state with the rest of its script. -/
theorem resetEventEffect : Obligations.ResetEventEffect := fun _ _ h => step_of_turns_cons h

end Sys2Proof.Machine
end
